-- ==== Sys2Proof/Word.lean ====
section
/-! DEFINITION. The word types of the LightLora sequencer (spec/00_scope.md R10, R11). -/

namespace Sys2Proof

/-- One byte: a target register, a frame-header field, a command byte (R10). -/
abbrev Byte := BitVec 8

/-- A register number of the SPI target, 7 bits (R10, R60). -/
abbrev RegNum := BitVec 7

/-- A frequency or bandwidth operand, 32-bit unsigned Hz (R10). -/
abbrev Hz := BitVec 32

end Sys2Proof
end

