-- ==== Sys2Proof/Config.lean ====
section
/-! DEFINITION. What an implementation fixes (spec/00_scope.md R8, R9), the environment's choices (R19), and the
free values. The default VALUES of the parameters are in Machine/Parameters.lean. -/

namespace Sys2Proof

/-! ## Constants (R8) -/

/-- HEADER_LEN (R8): bytes of frame header. -/
abbrev headerLen : Nat := 4
/-- MAX_PAYLOAD (R8): largest payload of a frame. -/
abbrev maxPayload : Nat := 251
/-- MAX_PKT_LENGTH (R8): FIFO capacity bound of WRITE. -/
abbrev maxPktLength : Nat := 255
/-- SF_MIN (R8). -/
abbrev sfMin : Nat := 6
/-- SF_MAX (R8). -/
abbrev sfMax : Nat := 12
/-- CR_MIN (R8). -/
abbrev crMin : Nat := 5
/-- CR_MAX (R8). -/
abbrev crMax : Nat := 8
/-- TXP_BOOST_MIN (R8). -/
abbrev txpBoostMin : Nat := 2
/-- TXP_BOOST_MAX (R8). -/
abbrev txpBoostMax : Nat := 17
/-- TXP_RFO_MIN (R8). -/
abbrev txpRfoMin : Nat := 0
/-- TXP_RFO_MAX (R8). -/
abbrev txpRfoMax : Nat := 14
/-- N_BW_BINS (R8): number of bandwidth bins. -/
abbrev nBwBins : Nat := 9
/-- SNR_STEP (R8): the value in dB of one unit of the SNR register. -/
abbrev snrStep : Rat := 1 / 4
/-- RSSI_BAND_HZ (R8). -/
abbrev rssiBandHz : Nat := 868000000
/-- RSSI_OFF_LOW (R8). -/
abbrev rssiOffLow : Int := 164
/-- RSSI_OFF_HIGH (R8). -/
abbrev rssiOffHigh : Int := 157

/-- The framing of the SPI port (R8, R106): clock polarity, clock phase, bit order, bits per byte. -/
structure SpiMode where
  cpol : Bool
  cpha : Bool
  msbFirst : Bool
  bits : Nat
  deriving DecidableEq, Repr

/-- SPI mode (R8): CPOL 0, CPHA 0, most significant bit first, 8 bits. Polarity and phase are bit timing, which no rule
reads (R6 f). -/
abbrev spiMode : SpiMode := { cpol := false, cpha := false, msbFirst := true, bits := 8 }

/-! ## Configuration (R8, R9) -/

/-- PA_SELECT (R9, D9): which power amplifier output SET_TX_POWER programs. -/
inductive PaSelect where
  | paBoost
  | rfo
  deriving DecidableEq, Repr

/-- The 24 register numbers of the SPI target (R65, R66): configuration, not fact. -/
structure RegMap where
  fifo : RegNum
  opMode : RegNum
  frfMsb : RegNum
  frfMid : RegNum
  frfLsb : RegNum
  paConfig : RegNum
  lna : RegNum
  fifoAddrPtr : RegNum
  fifoTxBaseAddr : RegNum
  fifoRxBaseAddr : RegNum
  fifoRxCurrentAddr : RegNum
  irqFlags : RegNum
  rxNbBytes : RegNum
  pktSnrValue : RegNum
  pktRssiValue : RegNum
  modemConfig1 : RegNum
  modemConfig2 : RegNum
  preambleMsb : RegNum
  preambleLsb : RegNum
  payloadLength : RegNum
  modemConfig3 : RegNum
  syncWord : RegNum
  dioMapping1 : RegNum
  version : RegNum
  deriving DecidableEq, Repr

/-- The opcodes of the 23 commands (R9, R101, D1), in the order of R101. -/
structure OpcodeMap where
  resetPins : Byte
  init : Byte
  beginPacket : Byte
  write : Byte
  endPacket : Byte
  receive : Byte
  onReceive : Byte
  onTransmit : Byte
  setFrequency : Byte
  setBandwidth : Byte
  setSf : Byte
  setCr : Byte
  setPreamble : Byte
  setSync : Byte
  enableCrc : Byte
  implicitHeader : Byte
  setTxPower : Byte
  packetRssi : Byte
  packetSnr : Byte
  attach : Byte
  sendPacket : Byte
  isPacketAvailable : Byte
  readPacket : Byte
  deriving DecidableEq, Repr

/-- The status codes (R9, R104, D2), in the order of R104. -/
structure StatusMap where
  ok : Byte
  unsupportedDevice : Byte
  transmitTimeout : Byte
  malformedFrame : Byte
  interruptAnomaly : Byte
  illegalCommand : Byte
  payloadTooLong : Byte
  notConstructed : Byte
  pinsNotReady : Byte
  deriving DecidableEq, Repr

/-- A bit field of a shared target register: its mask and the place of its lowest bit (R67, D4). -/
structure BitField where
  mask : Byte
  shift : Nat
  deriving DecidableEq, Repr

/-- The parameters of R8 (the tunable ones) and R9. -/
structure Config where
  /-- REG_* (R66, D3). -/
  regs : RegMap
  /-- Command opcodes (R101, D1). -/
  opcodes : OpcodeMap
  /-- Status codes (R104, D2). -/
  statuses : StatusMap
  /-- Bandwidth code, REG_MODEM_CONFIG_1 (R67). -/
  bwField : BitField
  /-- Coding-rate code, REG_MODEM_CONFIG_1 (R67). -/
  crField : BitField
  /-- Implicit header on, REG_MODEM_CONFIG_1 (R67). -/
  implicitMask : Byte
  /-- Spreading factor, REG_MODEM_CONFIG_2 (R67). -/
  sfField : BitField
  /-- Payload CRC on, REG_MODEM_CONFIG_2 (R67). -/
  crcMask : Byte
  /-- PA select, REG_PA_CONFIG (R67). -/
  paSelectMask : Byte
  /-- Max power, REG_PA_CONFIG (R67). -/
  paMaxPower : BitField
  /-- Output power, REG_PA_CONFIG (R67). -/
  paOutputPower : BitField
  opmodeLongRange : Byte
  opmodeSleep : Byte
  opmodeStdby : Byte
  opmodeTx : Byte
  opmodeRxCont : Byte
  /-- OPMODE_RXSINGLE: no sequence writes it (R317). -/
  opmodeRxSingle : Byte
  /-- EXPECTED_VERSION (D6). -/
  expectedVersion : Byte
  /-- F_XOSC_HZ (D7). -/
  fXoscHz : Nat
  /-- FRF_SHIFT (D7). -/
  frfShift : Nat
  /-- BW_BINS[0..8] (D8). -/
  bwBins : List Nat
  /-- BW_FALLBACK_CODE (D8). -/
  bwFallbackCode : BitVec 4
  /-- PA_SELECT (D9). -/
  paSelect : PaSelect
  /-- FIFO_TX_BASE_VAL (D12): admitted only as 0 (R154). -/
  fifoTxBaseVal : Byte
  /-- FIFO_RX_BASE_VAL (D12). -/
  fifoRxBaseVal : Byte
  /-- DIO0_MAP_RXDONE (D16). -/
  dio0MapRxDone : Byte
  /-- DIO0_MAP_TXDONE (D16). -/
  dio0MapTxDone : Byte
  irqRxTimeout : Byte
  irqRxDone : Byte
  irqCrcError : Byte
  irqTxDone : Byte
  /-- LNA_BOOST_BITS (D10). -/
  lnaBoostBits : Byte
  /-- AGC_AUTO_VALUE (D10). -/
  agcAutoValue : Byte
  /-- ICTX_PREEMPTS (D21), OPEN parameter. -/
  ictxPreempts : Bool
  /-- POLL_MAX (R8, R41): at most 255, so a byte. -/
  pollMax : Byte
  /-- POLL_INTERVAL_MS (R8): no rule reads it (U21). -/
  pollIntervalMs : Nat
  /-- RESET_HOLD_MS (R8): at least 10; no rule reads it (U21). -/
  resetHoldMs : Nat
  /-- SPI_BAUD_HZ (R8): no rule reads it (U21). -/
  spiBaudHz : Nat
  deriving DecidableEq, Repr

/-! ## The moves of the agents, and the free values -/

/-- One move of one agent (R19): the choice of who moves next, and of what an environment agent does. The order of
the moves is free (R73, R254, D20, D21). -/
inductive Turn where
  /-- The host presents a message at the command port (agent 5). -/
  | submit (message : List Byte)
  /-- HCTX takes its next atomic step, if it is enabled (agent 1). -/
  | host
  /-- ICTX takes its next atomic step, if it is enabled (agent 2). -/
  | irq
  /-- The dispatch of a latched edge; `txFirst` is the free choice when both latches are set (R245). -/
  | dispatch (txFirst : Bool)
  /-- A DIO0 rising edge (agent 3, R244). -/
  | edge
  /-- A POLL_TICK (agent 4, R270). -/
  | tick
  /-- The reference target's event TxComplete (R84). -/
  | txComplete
  /-- The reference target's event RxPacket (R85). -/
  | rxPacket (bytes : List Byte) (crcError : Bool) (rssiRaw snrRaw : Byte)
  deriving DecidableEq, Repr, Inhabited

/-- FREE VALUE (R74, R86): the byte the target shifts back in the n-th transfer whose answer nothing fixes. -/
opaque Config.freeByte : Nat → Byte

/-- FREE VALUE (R19, R73, R245, U20): the n-th move of the agents where no move has been laid down. -/
opaque Config.freeTurn : Nat → Turn

end Sys2Proof
end

