-- ==== Sys2Proof/Machine/Parameters.lean ====
section
/-! DEFINITION. The default values of the parameters (spec/00_scope.md R8, R9; spec/20_memory.md R66, R67). Every one
but those of R8 is marked by the spec as general knowledge or as its own decision. -/

namespace Sys2Proof.Machine

/-- The default register map (R66). -/
def defaultRegMap : RegMap :=
  { fifo := 0x00, opMode := 0x01, frfMsb := 0x06, frfMid := 0x07, frfLsb := 0x08, paConfig := 0x09,
    lna := 0x0C, fifoAddrPtr := 0x0D, fifoTxBaseAddr := 0x0E, fifoRxBaseAddr := 0x0F,
    fifoRxCurrentAddr := 0x10, irqFlags := 0x12, rxNbBytes := 0x13, pktSnrValue := 0x19,
    pktRssiValue := 0x1A, modemConfig1 := 0x1D, modemConfig2 := 0x1E, preambleMsb := 0x20,
    preambleLsb := 0x21, payloadLength := 0x22, modemConfig3 := 0x26, syncWord := 0x39,
    dioMapping1 := 0x40, version := 0x42 }

/-- The default opcodes (R101). -/
def defaultOpcodes : OpcodeMap :=
  { resetPins := 0x01, init := 0x10, beginPacket := 0x11, write := 0x12, endPacket := 0x13, receive := 0x14,
    onReceive := 0x15, onTransmit := 0x16, setFrequency := 0x20, setBandwidth := 0x21, setSf := 0x22, setCr := 0x23,
    setPreamble := 0x24, setSync := 0x25, enableCrc := 0x26, implicitHeader := 0x27, setTxPower := 0x28,
    packetRssi := 0x30, packetSnr := 0x31, attach := 0x40, sendPacket := 0x41, isPacketAvailable := 0x42,
    readPacket := 0x43 }

/-- The default status codes (R104). -/
def defaultStatuses : StatusMap :=
  { ok := 0x00, unsupportedDevice := 0x01, transmitTimeout := 0x02, malformedFrame := 0x03, interruptAnomaly := 0x04,
    illegalCommand := 0x05, payloadTooLong := 0x06, notConstructed := 0x07, pinsNotReady := 0x08 }

/-- The nine bandwidth bins (R9, D8). -/
def defaultBwBins : List Nat := [7800, 10400, 15600, 20800, 31250, 41700, 62500, 125000, 250000]

/-- The default configuration (R8, R9, R67). DESIGN CHOICE (log 20): RESET_HOLD_MS is 10, the least length R8 allows; the
spec leaves the length open beyond that (N29). -/
def defaultConfig : Config :=
  { regs := defaultRegMap
    opcodes := defaultOpcodes
    statuses := defaultStatuses
    bwField := { mask := 0xF0, shift := 4 }
    crField := { mask := 0x0E, shift := 1 }
    implicitMask := 0x01
    sfField := { mask := 0xF0, shift := 4 }
    crcMask := 0x04
    paSelectMask := 0x80
    paMaxPower := { mask := 0x70, shift := 4 }
    paOutputPower := { mask := 0x0F, shift := 0 }
    opmodeLongRange := 0x80
    opmodeSleep := 0
    opmodeStdby := 1
    opmodeTx := 3
    opmodeRxCont := 5
    opmodeRxSingle := 6
    expectedVersion := 0x12
    fXoscHz := 32000000
    frfShift := 19
    bwBins := defaultBwBins
    bwFallbackCode := 8
    paSelect := .paBoost
    fifoTxBaseVal := 0x00
    fifoRxBaseVal := 0x00
    dio0MapRxDone := 0x00
    dio0MapTxDone := 0x40
    irqRxTimeout := 0x80
    irqRxDone := 0x40
    irqCrcError := 0x20
    irqTxDone := 0x08
    lnaBoostBits := 0x03
    agcAutoValue := 0x04
    ictxPreempts := false
    pollMax := 50
    pollIntervalMs := 100
    resetHoldMs := 10
    spiBaudHz := 5000000 }

end Sys2Proof.Machine
end

