-- ==== Sys2Proof/Syntax.lean ====
section
/-! DEFINITION. The instruction set: one constructor per row of spec/opcode_table.json, in the table's
order: 23 host commands (spec/30_encoding.md R101) and the two SPI transfer forms (R106). -/

namespace Sys2Proof

/-- The nine operands of INIT, in the order of R101 ("the field order of LLMP's RadioParameters"). -/
structure RadioParameters where
  frequency : Hz
  txPowerLevel : Byte
  signalBandwidth : Hz
  spreadingFactor : Byte
  codingRate : Byte
  preambleLength : BitVec 16
  implicitHeader : Bool
  syncWord : Byte
  enableCrc : Bool
  deriving DecidableEq, Repr, Inhabited

/-- One constructor per row of the opcode table. A boolean operand byte is 0 or 1 (R102), so it is a `Bool`;
the length byte n of WRITE and SEND_PACKET is the length of the byte string (R103). -/
inductive Instr where
  /-- RESET_PINS (R140). -/
  | resetPins
  /-- SPI.RD, the read transfer (R141): emitted on the SPI port, never a host command. -/
  | spiRd (a : RegNum)
  /-- SPI.WR, the write transfer (R142): emitted on the SPI port, never a host command. -/
  | spiWr (a : RegNum) (v : Byte)
  /-- INIT (R152). -/
  | init (p : RadioParameters)
  /-- BEGIN_PACKET (R154). -/
  | beginPacket
  /-- WRITE (R155): n is the length of `data`. -/
  | write (data : List Byte)
  /-- END_PACKET (R156). -/
  | endPacket
  /-- RECEIVE (R157). -/
  | receive (size : Byte)
  /-- ON_RECEIVE (R158). -/
  | onReceive (enable : Bool)
  /-- ON_TRANSMIT (R159). -/
  | onTransmit (enable : Bool)
  /-- SET_FREQUENCY (R181). -/
  | setFrequency (frequency : Hz)
  /-- SET_BANDWIDTH (R182). -/
  | setBandwidth (bandwidth : Hz)
  /-- SET_SF (R183). -/
  | setSf (sf : Byte)
  /-- SET_CR (R184). -/
  | setCr (denominator : Byte)
  /-- SET_PREAMBLE (R185). -/
  | setPreamble (len : BitVec 16)
  /-- SET_SYNC (R186). -/
  | setSync (sync : Byte)
  /-- ENABLE_CRC (R188). -/
  | enableCrc (enable : Bool)
  /-- IMPLICIT_HEADER (R187). -/
  | implicitHeader (implicit : Bool)
  /-- SET_TX_POWER (R189). -/
  | setTxPower (level : Byte)
  /-- PACKET_RSSI (R202). -/
  | packetRssi
  /-- PACKET_SNR (R203). -/
  | packetSnr
  /-- ATTACH (R210). -/
  | attach
  /-- SEND_PACKET (R212): n is the length of `payload`. -/
  | sendPacket (src dst : Byte) (payload : List Byte)
  /-- IS_PACKET_AVAILABLE (R213). -/
  | isPacketAvailable
  /-- READ_PACKET (R214). -/
  | readPacket
  deriving DecidableEq, Repr

/-- The 23 host commands (R101), without their operands: what an opcode names. -/
inductive Command where
  | resetPins | init | beginPacket | write | endPacket | receive | onReceive | onTransmit
  | setFrequency | setBandwidth | setSf | setCr | setPreamble | setSync | enableCrc | implicitHeader | setTxPower
  | packetRssi | packetSnr | attach | sendPacket | isPacketAvailable | readPacket
  deriving DecidableEq, Repr

/-- The port an instruction travels on: host commands arrive at the command port (R100 a), transfer frames
leave on the SPI port (R106, "not accepted at the command port"). -/
inductive Port where
  | command
  | spi
  deriving DecidableEq, Repr

/-- The port of each instruction. -/
def Instr.port : Instr → Port
  | .spiRd _ => .spi
  | .spiWr _ _ => .spi
  | .resetPins => .command
  | .init _ => .command
  | .beginPacket => .command
  | .write _ => .command
  | .endPacket => .command
  | .receive _ => .command
  | .onReceive _ => .command
  | .onTransmit _ => .command
  | .setFrequency _ => .command
  | .setBandwidth _ => .command
  | .setSf _ => .command
  | .setCr _ => .command
  | .setPreamble _ => .command
  | .setSync _ => .command
  | .enableCrc _ => .command
  | .implicitHeader _ => .command
  | .setTxPower _ => .command
  | .packetRssi => .command
  | .packetSnr => .command
  | .attach => .command
  | .sendPacket _ _ _ => .command
  | .isPacketAvailable => .command
  | .readPacket => .command

end Sys2Proof
end

