-- ==== Sys2Proof/WellFormed.lean ====
section
/-! DEFINITION. Which instruction terms stand for a message or a frame, and which configurations are admitted
(spec/93_implementation_defined.md U16). -/

namespace Sys2Proof

/-- A byte string has a length byte only up to 255 bytes (R103); every other operand fits by its type.
SEND_PACKET with 252 to 255 bytes is a message (refused with PayloadTooLong, R119), so it is well formed. -/
def Instr.wellFormed : Instr → Bool
  | .write data => decide (data.length ≤ 255)
  | .sendPacket _ _ payload => decide (payload.length ≤ 255)
  | .resetPins => true
  | .spiRd _ => true
  | .spiWr _ _ => true
  | .init _ => true
  | .beginPacket => true
  | .endPacket => true
  | .receive _ => true
  | .onReceive _ => true
  | .onTransmit _ => true
  | .setFrequency _ => true
  | .setBandwidth _ => true
  | .setSf _ => true
  | .setCr _ => true
  | .setPreamble _ => true
  | .setSync _ => true
  | .enableCrc _ => true
  | .implicitHeader _ => true
  | .setTxPower _ => true
  | .packetRssi => true
  | .packetSnr => true
  | .attach => true
  | .isPacketAvailable => true
  | .readPacket => true

/-- The 24 register numbers in the order of R66. -/
def RegMap.toList (r : RegMap) : List RegNum :=
  [r.fifo, r.opMode, r.frfMsb, r.frfMid, r.frfLsb, r.paConfig, r.lna, r.fifoAddrPtr,
   r.fifoTxBaseAddr, r.fifoRxBaseAddr, r.fifoRxCurrentAddr, r.irqFlags, r.rxNbBytes, r.pktSnrValue,
   r.pktRssiValue, r.modemConfig1, r.modemConfig2, r.preambleMsb, r.preambleLsb, r.payloadLength,
   r.modemConfig3, r.syncWord, r.dioMapping1, r.version]

/-- The register numbers are pairwise distinct (R65); each is at most 127 by its type. -/
def RegMap.distinct (r : RegMap) : Bool := decide r.toList.Nodup

/-- The 23 opcodes in the order of R101. -/
def OpcodeMap.toList (m : OpcodeMap) : List Byte :=
  [m.resetPins, m.init, m.beginPacket, m.write, m.endPacket, m.receive, m.onReceive, m.onTransmit,
   m.setFrequency, m.setBandwidth, m.setSf, m.setCr, m.setPreamble, m.setSync, m.enableCrc, m.implicitHeader,
   m.setTxPower, m.packetRssi, m.packetSnr, m.attach, m.sendPacket, m.isPacketAvailable, m.readPacket]

/-- The opcodes are pairwise distinct (log 10). -/
def OpcodeMap.distinct (m : OpcodeMap) : Bool := decide m.toList.Nodup

/-- The nine status codes in the order of R104. -/
def StatusMap.toList (m : StatusMap) : List Byte :=
  [m.ok, m.unsupportedDevice, m.transmitTimeout, m.malformedFrame, m.interruptAnomaly, m.illegalCommand,
   m.payloadTooLong, m.notConstructed, m.pinsNotReady]

/-- The status codes are pairwise distinct (log 10). -/
def StatusMap.distinct (m : StatusMap) : Bool := decide m.toList.Nodup

/-- No bit lies in two of the masks. -/
def disjointMasks (masks : List Byte) : Bool := decide (masks.Pairwise fun a b => a &&& b = 0)

/-- The masks of the fields that share a register are disjoint (R67): REG_MODEM_CONFIG_1, REG_MODEM_CONFIG_2,
REG_PA_CONFIG, REG_IRQ_FLAGS. -/
def Config.masksDisjoint (c : Config) : Bool :=
  disjointMasks [c.bwField.mask, c.crField.mask, c.implicitMask] && disjointMasks [c.sfField.mask, c.crcMask] &&
  disjointMasks [c.paSelectMask, c.paMaxPower.mask, c.paOutputPower.mask] &&
  disjointMasks [c.irqRxTimeout, c.irqRxDone, c.irqCrcError, c.irqTxDone]

/-- The admitted configurations (U16, R65, R67, R154, R8; log 10): POLL_MAX is at most 255 by its type. -/
def Config.admitted (c : Config) : Bool :=
  c.regs.distinct && c.masksDisjoint && c.opcodes.distinct && c.statuses.distinct && (c.fifoTxBaseVal == 0) &&
  (c.bwBins.length == nBwBins) && decide (0 < c.fXoscHz) && decide (10 ≤ c.resetHoldMs)

end Sys2Proof
end

