-- ==== Sys2Proof/Decode.lean ====
section
/-! DEFINITION. The decoder of the command port and of the SPI transfer frame, total on any bytes (spec/30_encoding.md
R100 to R107, R118), the encoder, the assembler's pseudo-instructions (R121, R122), and the host's `decodeTableWord`. The
opcodes are the configuration's (R9, D1). -/

namespace Sys2Proof

/-! ## Byte order (R102: multi-byte operands are big-endian) -/

/-- Two bytes, the first the more significant. -/
def join16 (b1 b0 : Byte) : BitVec 16 := b1 ++ b0

/-- Four bytes, the first the most significant. -/
def join32 (b3 b2 b1 b0 : Byte) : BitVec 32 := b3 ++ b2 ++ b1 ++ b0

/-- The bytes of a 16-bit value, most significant first. -/
def bytes16 (v : BitVec 16) : List Byte := [v.extractLsb' 8 8, v.extractLsb' 0 8]

/-- The bytes of a 32-bit value, most significant first. -/
def bytes32 (v : BitVec 32) : List Byte :=
  [v.extractLsb' 24 8, v.extractLsb' 16 8, v.extractLsb' 8 8, v.extractLsb' 0 8]

/-- The byte of a boolean operand: 0x00 false, 0x01 true (R102). -/
def boolByte (b : Bool) : Byte := if b then 1 else 0

/-! ## Opcodes -/

/-- The 23 commands, in the order of R101. -/
def commands : List Command :=
  [.resetPins, .init, .beginPacket, .write, .endPacket, .receive, .onReceive, .onTransmit, .setFrequency, .setBandwidth,
   .setSf, .setCr, .setPreamble, .setSync, .enableCrc, .implicitHeader, .setTxPower, .packetRssi, .packetSnr, .attach,
   .sendPacket, .isPacketAvailable, .readPacket]

/-- The opcode of a command (R101). -/
def OpcodeMap.code (m : OpcodeMap) : Command → Byte
  | .resetPins => m.resetPins
  | .init => m.init
  | .beginPacket => m.beginPacket
  | .write => m.write
  | .endPacket => m.endPacket
  | .receive => m.receive
  | .onReceive => m.onReceive
  | .onTransmit => m.onTransmit
  | .setFrequency => m.setFrequency
  | .setBandwidth => m.setBandwidth
  | .setSf => m.setSf
  | .setCr => m.setCr
  | .setPreamble => m.setPreamble
  | .setSync => m.setSync
  | .enableCrc => m.enableCrc
  | .implicitHeader => m.implicitHeader
  | .setTxPower => m.setTxPower
  | .packetRssi => m.packetRssi
  | .packetSnr => m.packetSnr
  | .attach => m.attach
  | .sendPacket => m.sendPacket
  | .isPacketAvailable => m.isPacketAvailable
  | .readPacket => m.readPacket

/-- The command an opcode names (R101), if it names one (R118). -/
def commandOf (m : OpcodeMap) (op : Byte) : Option Command := commands.find? fun k => m.code k == op

/-! ## Decoding -/

/-- Why a message or a frame is no instruction (R118); each is answered IllegalCommand at the command port. -/
inductive DecodeError where
  /-- The empty message. -/
  | empty
  /-- The first byte is none of the 23 opcodes. -/
  | unknownOpcode (op : Byte)
  /-- The length is not the one R101 gives. -/
  | wrongLength (op : Byte)
  /-- A boolean operand is neither 0x00 nor 0x01. -/
  | badBoolean (b : Byte)
  /-- Not one of the two patterns of R106 on the SPI port. -/
  | notATransfer
  deriving DecidableEq, Repr

/-- A boolean operand byte (R102, R118). -/
def decodeBool (b : Byte) : Except DecodeError Bool :=
  if b = 0 then .ok false else if b = 1 then .ok true else .error (.badBoolean b)

/-- Format CMD-0: no operand. -/
def formatCmd0 (op : Byte) (i : Instr) : List Byte → Except DecodeError Instr
  | [] => .ok i
  | _ => .error (.wrongLength op)

/-- Format CMD-B1 with an unsigned operand byte. -/
def formatCmdB1 (op : Byte) (f : Byte → Instr) : List Byte → Except DecodeError Instr
  | [b] => .ok (f b)
  | _ => .error (.wrongLength op)

/-- Format CMD-B1 with a boolean operand byte. -/
def formatCmdBool (op : Byte) (f : Bool → Instr) : List Byte → Except DecodeError Instr
  | [b] => (decodeBool b).map f
  | _ => .error (.wrongLength op)

/-- Format CMD-B2: one 16-bit operand. -/
def formatCmdB2 (op : Byte) (f : BitVec 16 → Instr) : List Byte → Except DecodeError Instr
  | [b1, b0] => .ok (f (join16 b1 b0))
  | _ => .error (.wrongLength op)

/-- Format CMD-W4: one 32-bit operand. -/
def formatCmdW4 (op : Byte) (f : BitVec 32 → Instr) : List Byte → Except DecodeError Instr
  | [b3, b2, b1, b0] => .ok (f (join32 b3 b2 b1 b0))
  | _ => .error (.wrongLength op)

/-- Format CMD-P16: the nine fields of RadioParameters in 16 bytes. -/
def formatCmdP16 (op : Byte) : List Byte → Except DecodeError Instr
  | [f3, f2, f1, f0, level, w3, w2, w1, w0, sf, cr, p1, p0, implicit, sync, crc] =>
    match decodeBool implicit, decodeBool crc with
    | .ok imp, .ok en =>
      .ok (.init { frequency := join32 f3 f2 f1 f0, txPowerLevel := level,
                   signalBandwidth := join32 w3 w2 w1 w0, spreadingFactor := sf, codingRate := cr,
                   preambleLength := join16 p1 p0, implicitHeader := imp, syncWord := sync, enableCrc := en })
    | .error e, _ => .error e
    | _, .error e => .error e
  | _ => .error (.wrongLength op)

/-- Format CMD-V: a length byte n, then exactly n bytes (R103). -/
def formatCmdV (op : Byte) : List Byte → Except DecodeError Instr
  | n :: data => if data.length = n.toNat then .ok (.write data) else .error (.wrongLength op)
  | [] => .error (.wrongLength op)

/-- Format CMD-S: source, destination, a length byte n, then exactly n bytes (R103). -/
def formatCmdS (op : Byte) : List Byte → Except DecodeError Instr
  | src :: dst :: n :: payload =>
    if payload.length = n.toNat then .ok (.sendPacket src dst payload) else .error (.wrongLength op)
  | _ => .error (.wrongLength op)

/-- The operands of each command of R101; `op` is its opcode. -/
def decodeOperands (op : Byte) : Command → List Byte → Except DecodeError Instr
  | .resetPins => formatCmd0 op .resetPins
  | .init => formatCmdP16 op
  | .beginPacket => formatCmd0 op .beginPacket
  | .write => formatCmdV op
  | .endPacket => formatCmd0 op .endPacket
  | .receive => formatCmdB1 op .receive
  | .onReceive => formatCmdBool op .onReceive
  | .onTransmit => formatCmdBool op .onTransmit
  | .setFrequency => formatCmdW4 op .setFrequency
  | .setBandwidth => formatCmdW4 op .setBandwidth
  | .setSf => formatCmdB1 op .setSf
  | .setCr => formatCmdB1 op .setCr
  | .setPreamble => formatCmdB2 op .setPreamble
  | .setSync => formatCmdB1 op .setSync
  | .enableCrc => formatCmdBool op .enableCrc
  | .implicitHeader => formatCmdBool op .implicitHeader
  | .setTxPower => formatCmdB1 op .setTxPower
  | .packetRssi => formatCmd0 op .packetRssi
  | .packetSnr => formatCmd0 op .packetSnr
  | .attach => formatCmd0 op .attach
  | .sendPacket => formatCmdS op
  | .isPacketAvailable => formatCmd0 op .isPacketAvailable
  | .readPacket => formatCmd0 op .readPacket

/-- A message at the command port (R118: decoding is total). -/
def decodeCommand (m : OpcodeMap) : List Byte → Except DecodeError Instr
  | [] => .error .empty
  | op :: args =>
    match commandOf m op with
    | some k => decodeOperands op k args
    | none => .error (.unknownOpcode op)

/-- A transfer frame, address byte first (R106): `0aaaaaaa 00000000` or `1aaaaaaa vvvvvvvv`. -/
def decodeTransfer : List Byte → Except DecodeError Instr
  | [a8, v] =>
    if a8.getLsbD 7 then .ok (.spiWr (a8.extractLsb' 0 7) v)
    else if v = 0 then .ok (.spiRd (a8.extractLsb' 0 7))
    else .error .notATransfer
  | _ => .error .notATransfer

/-- The decoder of each port. -/
def decode (m : OpcodeMap) : Port → List Byte → Except DecodeError Instr
  | .command, bytes => decodeCommand m bytes
  | .spi, bytes => decodeTransfer bytes

/-! ## Encoding -/

/-- Address byte of a read transfer, `a & 0x7F` (R107). -/
def readAddressByte (a : RegNum) : Byte := a.zeroExtend 8

/-- Address byte of a write transfer, `a | 0x80` (R107). -/
def writeAddressByte (a : RegNum) : Byte := a.zeroExtend 8 ||| 0x80

/-- The bytes of an instruction: the message of R101, or the frame of R106. -/
def encode (m : OpcodeMap) : Instr → List Byte
  | .resetPins => [m.resetPins]
  | .spiRd a => [readAddressByte a, 0x00]
  | .spiWr a v => [writeAddressByte a, v]
  | .init p =>
    m.init :: (bytes32 p.frequency ++ [p.txPowerLevel] ++ bytes32 p.signalBandwidth ++
      [p.spreadingFactor, p.codingRate] ++ bytes16 p.preambleLength ++
      [boolByte p.implicitHeader, p.syncWord, boolByte p.enableCrc])
  | .beginPacket => [m.beginPacket]
  | .write data => m.write :: BitVec.ofNat 8 data.length :: data
  | .endPacket => [m.endPacket]
  | .receive size => [m.receive, size]
  | .onReceive e => [m.onReceive, boolByte e]
  | .onTransmit e => [m.onTransmit, boolByte e]
  | .setFrequency f => m.setFrequency :: bytes32 f
  | .setBandwidth w => m.setBandwidth :: bytes32 w
  | .setSf b => [m.setSf, b]
  | .setCr b => [m.setCr, b]
  | .setPreamble p => m.setPreamble :: bytes16 p
  | .setSync b => [m.setSync, b]
  | .enableCrc e => [m.enableCrc, boolByte e]
  | .implicitHeader e => [m.implicitHeader, boolByte e]
  | .setTxPower b => [m.setTxPower, b]
  | .packetRssi => [m.packetRssi]
  | .packetSnr => [m.packetSnr]
  | .attach => [m.attach]
  | .sendPacket src dst payload => m.sendPacket :: src :: dst :: BitVec.ofNat 8 payload.length :: payload
  | .isPacketAvailable => [m.isPacketAvailable]
  | .readPacket => [m.readPacket]

/-! ## The assembler's pseudo-instructions (R121, R122) -/

/-- One `name=value` pair of an INIT line (R121). -/
inductive InitField where
  | frequency (v : Hz)
  | txPowerLevel (v : Byte)
  | signalBandwidth (v : Hz)
  | spreadingFactor (v : Byte)
  | codingRate (v : Byte)
  | preambleLength (v : BitVec 16)
  | implicitHeader (v : Bool)
  | syncWord (v : Byte)
  | enableCrc (v : Bool)
  deriving DecidableEq, Repr

/-- The defaults the assembler fills in for omitted INIT operands (R8, R122 a). -/
def defaultRadioParameters : RadioParameters :=
  { frequency := 915000000, txPowerLevel := 5, signalBandwidth := 125000, spreadingFactor := 7,
    codingRate := 5, preambleLength := 8, implicitHeader := false, syncWord := 0x12, enableCrc := true }

/-- The effect of one pair. -/
def InitField.set (p : RadioParameters) : InitField → RadioParameters
  | .frequency v => { p with frequency := v }
  | .txPowerLevel v => { p with txPowerLevel := v }
  | .signalBandwidth v => { p with signalBandwidth := v }
  | .spreadingFactor v => { p with spreadingFactor := v }
  | .codingRate v => { p with codingRate := v }
  | .preambleLength v => { p with preambleLength := v }
  | .implicitHeader v => { p with implicitHeader := v }
  | .syncWord v => { p with syncWord := v }
  | .enableCrc v => { p with enableCrc := v }

/-- `INIT` with `name=value` pairs in any order, the omitted fields at their defaults (R121, R122 a). -/
def assembleInit (fields : List InitField) : Instr := .init (fields.foldl InitField.set defaultRadioParameters)

/-- `LISTEN` is `RECEIVE 0` (R122 b). -/
def assembleListen : Instr := .receive 0

/-- `PRINTLN src, dst, bytes` is `SEND_PACKET src, dst, bytes` (R122 c, D43). -/
def assemblePrintln (src dst : Byte) (bytes : List Byte) : Instr := .sendPacket src dst bytes

/-- Decimal text of an operand (R121). -/
def textNat (n : Nat) : String := toString n

/-- A boolean operand's text (R121). -/
def textBool (b : Bool) : String := if b then "true" else "false"

/-- A hexadecimal digit. -/
def textHexDigit (n : Nat) : String := String.ofList ((Nat.toDigits 16 n).map Char.toUpper)

/-- A byte string as hex bytes separated by spaces (R121). -/
def textBytes (bytes : List Byte) : String :=
  String.intercalate " " (bytes.map fun b => textHexDigit (b.toNat / 16) ++ textHexDigit (b.toNat % 16))

/-- The textual form of an instruction: its mnemonic, then its operands in the order of R101 (R121). The two
transfer forms have no assembler form: the host cannot write them. -/
def assemblerText : Instr → Option String
  | .resetPins => some "RESET_PINS"
  | .spiRd _ => none
  | .spiWr _ _ => none
  | .init p => some ("INIT frequency=" ++ textNat p.frequency.toNat ++
      ", tx_power_level=" ++ textNat p.txPowerLevel.toNat ++
      ", signal_bandwidth=" ++ textNat p.signalBandwidth.toNat ++
      ", spreading_factor=" ++ textNat p.spreadingFactor.toNat ++
      ", coding_rate=" ++ textNat p.codingRate.toNat ++
      ", preamble_length=" ++ textNat p.preambleLength.toNat ++
      ", implicit_header=" ++ textBool p.implicitHeader ++
      ", sync_word=" ++ textNat p.syncWord.toNat ++
      ", enable_crc=" ++ textBool p.enableCrc)
  | .beginPacket => some "BEGIN_PACKET"
  | .write data => some ("WRITE " ++ textBytes data)
  | .endPacket => some "END_PACKET"
  | .receive size => some ("RECEIVE " ++ textNat size.toNat)
  | .onReceive e => some ("ON_RECEIVE " ++ textBool e)
  | .onTransmit e => some ("ON_TRANSMIT " ++ textBool e)
  | .setFrequency f => some ("SET_FREQUENCY " ++ textNat f.toNat)
  | .setBandwidth w => some ("SET_BANDWIDTH " ++ textNat w.toNat)
  | .setSf b => some ("SET_SF " ++ textNat b.toNat)
  | .setCr b => some ("SET_CR " ++ textNat b.toNat)
  | .setPreamble p => some ("SET_PREAMBLE " ++ textNat p.toNat)
  | .setSync b => some ("SET_SYNC " ++ textNat b.toNat)
  | .enableCrc e => some ("ENABLE_CRC " ++ textBool e)
  | .implicitHeader e => some ("IMPLICIT_HEADER " ++ textBool e)
  | .setTxPower b => some ("SET_TX_POWER " ++ textNat b.toNat)
  | .packetRssi => some "PACKET_RSSI"
  | .packetSnr => some "PACKET_SNR"
  | .attach => some "ATTACH"
  | .sendPacket src dst payload =>
    some ("SEND_PACKET " ++ textNat src.toNat ++ ", " ++ textNat dst.toNat ++ ", " ++ textBytes payload)
  | .isPacketAvailable => some "IS_PACKET_AVAILABLE"
  | .readPacket => some "READ_PACKET"

/-! ## The host's table words -/

/-- The first `k` bytes of a table word: bit 0 is the least significant bit of the first byte, and a later byte's
bits count on from it. -/
def tableBytes : Nat → Nat → List Byte
  | 0, _ => []
  | k + 1, w => BitVec.ofNat 8 w :: tableBytes k (w / 256)

/-- The length of a command's message (R101, R103): from the command alone, or from its length byte. -/
def commandLength (bytes : List Byte) : Command → Nat
  | .resetPins => 1
  | .init => 17
  | .beginPacket => 1
  | .write => 2 + (bytes.getD 1 0).toNat
  | .endPacket => 1
  | .receive => 2
  | .onReceive => 2
  | .onTransmit => 2
  | .setFrequency => 5
  | .setBandwidth => 5
  | .setSf => 2
  | .setCr => 2
  | .setPreamble => 3
  | .setSync => 2
  | .enableCrc => 2
  | .implicitHeader => 2
  | .setTxPower => 2
  | .packetRssi => 1
  | .packetSnr => 1
  | .attach => 1
  | .sendPacket => 4 + (bytes.getD 3 0).toNat
  | .isPacketAvailable => 1
  | .readPacket => 1

/-- The length of the message that starts with these bytes; an unknown opcode counts one byte. -/
def messageLength (m : OpcodeMap) (bytes : List Byte) : Nat :=
  match commandOf m (bytes.getD 0 0) with
  | some k => commandLength bytes k
  | none => 1

/-- The command message of a table word: its bytes, every bit above `nbits` zero, at the length R101 gives. -/
def tableMessage (m : OpcodeMap) (nbits w : Nat) : List Byte :=
  let bytes := tableBytes (nbits / 8) w ++ List.replicate 259 0
  bytes.take (messageLength m bytes)

/-- The SPI frame of a 16-bit table word, address byte (bits 15..8) first (R106: bit 15 is sent first). -/
def tableFrame (w : Nat) : List Byte := [BitVec.ofNat 8 (w / 256), BitVec.ofNat 8 w]

/-- The transfer frame a 16-bit table word stands for, if it is one of the two patterns of R106. -/
def tableTransfer (nbits w : Nat) : Option (List Byte) :=
  if nbits = 16 then
    match decodeTransfer (tableFrame w) with
    | .ok _ => some (tableFrame w)
    | .error _ => none
  else none

/-- The instruction the decoder reads from a table word: a 16-bit word of one of the transfer patterns is an SPI frame,
any other word the start of a command message. -/
def decodeWord (m : OpcodeMap) (nbits w : Nat) : Option Instr :=
  match tableTransfer nbits w with
  | some frame => (decode m .spi frame).toOption
  | none => (decode m .command (tableMessage m nbits w)).toOption

/-- The instruction the decoder reads from a word of the opcode table, whose opcodes are the defaults. -/
def decodeTableWord (nbits w : Nat) : Option Instr := decodeWord Machine.defaultOpcodes nbits w

end Sys2Proof
end

