-- ==== Sys2Proof/Machine/State.lean ====
section
/-! DEFINITION. The state of the block (spec/10_state.md R20 to R48), the environment's plain data (spec/00_scope.md R19,
spec/20_memory.md R74, R80), the model's record of outputs, and the state after block reset (R46). -/

namespace Sys2Proof.Machine

/-- MODE (R32): the tracked logical radio mode. -/
inductive Mode where
  | sleep
  | standby
  | tx
  | rxContinuous
  | rxSingle
  deriving DecidableEq, Repr

/-- LOCK (R33). -/
inductive Lock where
  | free
  | heldByHost
  | heldByIrq
  deriving DecidableEq, Repr

/-- HDR (R34): the tracked header mode. -/
inductive HdrMode where
  | unknown
  | explicit
  | implicit
  deriving DecidableEq, Repr

/-- ARMED (R36): which handler is attached to the DIO0 edge. -/
inductive Armed where
  | none
  | rxDone
  | txDone
  deriving DecidableEq, Repr

/-- DRV (R38). -/
inductive Drv where
  | absent
  | ready
  deriving DecidableEq, Repr

/-- A pin output (R42): not driven before the first RESET_PINS. -/
inductive Pin where
  | undriven
  | low
  | high
  deriving DecidableEq, Repr

/-- The two execution contexts (R240). -/
inductive Ctx where
  | hctx
  | ictx
  deriving DecidableEq, Repr

/-- Direction of a transfer (R106). -/
inductive Dir where
  | rd
  | wr
  deriving DecidableEq, Repr

/-- The reason of an InterruptAnomaly (R260): 1, 2 or 3. -/
inductive AnomalyReason where
  /-- 1: the expected flag is absent. -/
  | flagAbsent
  /-- 2: CRC error or RX timeout with RX done. -/
  | badReception
  /-- 3: no callback is registered. -/
  | noCallback
  deriving DecidableEq, Repr

/-! ## Micro-step pointers (R26) -/

/-- Steps s1 to s6 of RESET_PINS (R140). -/
inductive ResetStep where
  | s1 | s2 | s3 | s4 | s5 | s6
  deriving DecidableEq, Repr

/-- Steps i0 to i25 of INIT (R152). -/
inductive InitStep where
  | i0 | i1 | i2 | i3 | i4 | i5 | i6 | i7 | i8 | i9 | i10 | i11 | i12
  | i13 | i14 | i15 | i16 | i17 | i18 | i19 | i20 | i21 | i22 | i23 | i24 | i25
  deriving DecidableEq, Repr

/-- Steps b1 to b3 of BEGIN_PACKET (R154). -/
inductive BeginStep where
  | b1 | b2 | b3
  deriving DecidableEq, Repr

/-- Steps w1 to w3 of WRITE (R155). -/
inductive WriteStep where
  | w1 | w2 | w3
  deriving DecidableEq, Repr

/-- Steps e1 to e3 of END_PACKET (R156). -/
inductive EndStep where
  | e1 | e2 | e3
  deriving DecidableEq, Repr

/-- Steps v1 to v6 of RECEIVE (R157). -/
inductive ReceiveStep where
  | v1 | v2 | v3 | v4 | v5 | v6
  deriving DecidableEq, Repr

/-- Steps f1 to f3 of SET_FREQUENCY (R181). -/
inductive FreqStep where
  | f1 | f2 | f3
  deriving DecidableEq, Repr

/-- Steps x1, x2 of an RMW setter (R144). -/
inductive RmwStep where
  | x1 | x2
  deriving DecidableEq, Repr

/-- Steps m1, m2 of SET_PREAMBLE (R185). -/
inductive PreambleStep where
  | m1 | m2
  deriving DecidableEq, Repr

/-- Steps h1, h2 of IMPLICIT_HEADER (R187). -/
inductive HeaderStep where
  | h1 | h2
  deriving DecidableEq, Repr

/-- Steps s1 to s16 of SEND_PACKET (R212). s8 and s9 are whole WRITE sub-sequences. `s15` stands at the loop's test,
`s15Await` at its `await POLL_TICK` after the test has passed. -/
inductive SendStep where
  | s1 | s2 | s3 | s4 | s5 | s6 | s7
  | s8 (w : WriteStep)
  | s9 (w : WriteStep)
  | s10 | s11 | s12 | s13 | s14 | s15 | s15Await | s16
  deriving DecidableEq, Repr

/-- HUPC (R26, R27): `idle`, or the sequence and its step, with the operands the command port copied when it accepted
the command (R77). A sequence of one step (o1, y1, p1, q1, a1) needs no label. -/
inductive HUpc where
  | idle
  | resetPins (k : ResetStep)
  | init (p : RadioParameters) (k : InitStep)
  | beginPacket (k : BeginStep)
  | write (n : Nat) (k : WriteStep)
  | endPacket (k : EndStep)
  | receive (size : Byte) (k : ReceiveStep)
  | onReceive (enable : Bool)
  | onTransmit (enable : Bool)
  | setFrequency (frequency : Hz) (k : FreqStep)
  | setBandwidth (bandwidth : Hz) (k : RmwStep)
  | setSf (sf : Byte) (k : RmwStep)
  | setCr (denominator : Byte) (k : RmwStep)
  | setPreamble (len : BitVec 16) (k : PreambleStep)
  | setSync (sync : Byte)
  | enableCrc (enable : Bool) (k : RmwStep)
  | implicitHeader (implicit : Bool) (k : HeaderStep)
  | setTxPower (level : Byte)
  | packetRssi
  | packetSnr
  | attach
  | sendPacket (src dst : Byte) (n : Nat) (k : SendStep)
  | isPacketAvailable
  | readPacket
  deriving DecidableEq, Repr

/-- The steps v1, v2, v4, v5, v6 of the re-arm, RECEIVE with size 0 in ICTX (R250 c6, R252 d2). -/
inductive RearmStep where
  | v1 | v2 | v4 | v5 | v6
  deriving DecidableEq, Repr

/-- Steps of ISR_RX (R247) and of the receive callback (R250). `r11` carries the reason r4 assigned, `c5` the value
`rssi` c4 computed: the spec names no register for either. -/
inductive RxStep where
  | r1 | r2 | r3 | r4 | r5 | r6 | r7 | r8 | r9 | r10
  | r11 (reason : AnomalyReason)
  | c1 | c2 | c3 | c4
  | c5 (rssi : Int)
  | c6 (v : RearmStep)
  deriving DecidableEq, Repr

/-- Steps of ISR_TX (R251) and of the transmit callback (R252). -/
inductive TxStep where
  | t1 | t2 | t3 | t4 | t5 | t6 | t7
  | t8 (reason : AnomalyReason)
  | d1
  | d2 (v : RearmStep)
  deriving DecidableEq, Repr

/-- IUPC (R26, R28). -/
inductive IUpc where
  | idle
  | isrRx (k : RxStep)
  | isrTx (k : TxStep)
  deriving DecidableEq, Repr

/-! ## Registers -/

/-- HCTX working registers (R21). DESIGN CHOICE (log 23): between sequences, where R23 gives them no defined value, they keep
what the last one left. -/
structure HCtx where
  /-- T: byte returned by the most recent read transfer of HCTX. -/
  t : Byte
  /-- M: byte written by the write half of an RMW. -/
  m : Byte
  /-- CUR: "payload_length_so_far" read by WRITE. -/
  cur : Byte
  /-- K: number of bytes WRITE will write. -/
  k : Byte
  /-- CNT: loop index of WRITE. -/
  cnt : Byte
  /-- FRF: frequency word. -/
  frf : BitVec 24
  /-- CODE: bandwidth code. -/
  code : BitVec 4
  /-- HB[0..3]: frame header built by SEND_PACKET. -/
  hb : List Byte
  deriving DecidableEq, Repr

/-- ICTX working registers (R22). DESIGN CHOICE (log 23): between sequences, where R23 gives them no defined value, they keep
what the last one left. -/
structure ICtx where
  /-- F: IRQ-flags byte read at interrupt entry. -/
  f : Byte
  /-- A: "chip-reported current-RX address". -/
  a : Byte
  /-- N: number of raw payload bytes. -/
  n : Byte
  /-- ICNT: loop index of the FIFO read. -/
  icnt : Byte
  /-- IT: byte returned by the most recent read transfer of ICTX. -/
  it : Byte
  /-- IM: byte written by the write half of the re-arm's RMW. -/
  im : Byte
  /-- RSSI_RAW. -/
  rssiRaw : Byte
  /-- SNR_RAW. -/
  snrRaw : Byte
  deriving DecidableEq, Repr

/-- SLOT (R43). `payload` holds the `count` bytes of the packet. DESIGN CHOICE (log 25): while valid = 0, where R43 leaves the
other fields not defined, they keep their values. -/
structure Slot where
  valid : Bool
  srcAddress : Byte
  dstAddress : Byte
  sequenceNumber : Byte
  payloadLength : Byte
  count : Byte
  payload : List Byte
  /-- Signed, -164 .. +98 (R10). -/
  rssi : Int
  snrRaw : Byte
  deriving DecidableEq, Repr

/-! ## Outputs (bookkeeping of the model, R45, R74) -/

/-- One transfer as R74 records it: context, R or W, register number, byte sent, byte captured. -/
structure Transfer where
  ctx : Ctx
  dir : Dir
  reg : RegNum
  sent : Byte
  captured : Byte
  deriving DecidableEq, Repr

/-- One event on the diagnostic output (R261). -/
structure Diag where
  code : Byte
  reason : Byte
  data : Byte
  deriving DecidableEq, Repr

/-- What the block put on its output ports (R272), in one total order (R72, R261). -/
inductive Output where
  | transfer (t : Transfer)
  | diag (d : Diag)
  | response (bytes : List Byte)
  | csPin (level : Pin)
  | rstPin (level : Pin)
  deriving DecidableEq, Repr

/-! ## Environment (R19) -/

/-- The target space of the reference target (R80): register `a` at address `a`, FIFO position `p` at 256 + `p`. Sorted by
address, no entry 0x00; an unlisted address reads 0x00 (R81). -/
abbrev Memory := List Host.Cell

/-- Which target is attached: any SX127x (every answer is a draw, R74), or the reference target (R80 to R86). -/
inductive TargetKind where
  | arbitrary
  | reference
  deriving DecidableEq, Repr

/-- The environment's plain data. None of it is state of the block. -/
structure Env where
  kind : TargetKind
  /-- TR and TFIFO of the reference target. -/
  tmem : Memory
  /-- The coming draws of the target, oldest first; after them `Config.freeByte`. -/
  answers : List Byte
  /-- Draws taken from `Config.freeByte` so far. -/
  draws : Nat
  /-- The coming moves of the agents, oldest first; after them `Config.freeTurn`. -/
  script : List Turn
  /-- Moves taken from `Config.freeTurn` so far. -/
  turns : Nat
  deriving DecidableEq, Repr

/-- The machine: the configuration (no step writes it), the block (R20), and the environment. -/
structure State where
  cfg : Config
  hupc : HUpc
  iupc : IUpc
  hctx : HCtx
  ictx : ICtx
  /-- TXB[0..254] (R24); the bytes beyond the operand are kept (log 24). -/
  txb : List Byte
  /-- RXBUF[0..254] (R24); the bytes from N on are kept (log 24). -/
  rxbuf : List Byte
  /-- TXDONE (R29). -/
  txDone : Bool
  /-- MODE (R32). -/
  mode : Mode
  /-- LOCK (R33). -/
  lock : Lock
  /-- HDR (R34). -/
  hdr : HdrMode
  /-- FREQ (R35). -/
  freq : Hz
  /-- ARMED (R36). -/
  armed : Armed
  /-- RXCB (R37). -/
  rxcb : Bool
  /-- TXCB (R37). -/
  txcb : Bool
  /-- DRV (R38). -/
  drv : Drv
  /-- PINS_READY (R39). -/
  pinsReady : Bool
  /-- SEQ (R40). -/
  seq : Byte
  /-- PCNT (R41). -/
  pcnt : Byte
  /-- CS (R42). -/
  cs : Pin
  /-- RST (R42). -/
  rst : Pin
  /-- SLOT (R43). -/
  slot : Slot
  /-- PEND_RX (R44). -/
  pendRx : Bool
  /-- PEND_TX (R44). -/
  pendTx : Bool
  /-- A transfer frame laid at the SPI port from outside a sequence (the model's own: `withFetchWord` alone sets it). -/
  spiFrame : Option (List Byte)
  env : Env
  /-- Everything the block put out, newest first. -/
  out : List Output
  deriving DecidableEq, Repr

/-- Why the machine stops with a fault. Neither error the spec calls a fault (R14, R260) is one of these: both end their
sequence with a status and the block goes on (R264). -/
inductive Fault where
  /-- Raised by `exec` on a host command while HUPC is not Idle: the host submits a command only when it is (R27), so the
  spec gives no effect; `step` never asks for it. Safe. -/
  | commandPortBusy
  deriving DecidableEq, Repr

/-- Why the machine gives no meaning. -/
inductive Refusal where
  /-- An instruction without a meaning (none here). Safe. -/
  | notModelled (mnemonic : String)
  /-- Raised by `step` in a configuration outside the admitted set, which the spec refuses (U16). Safe. -/
  | configurationNotAdmitted
  /-- Raised by `step` where the frame laid at the SPI port is none of the two patterns of R106; the block never emits
  such a frame. Safe. -/
  | notATransferFrame
  deriving DecidableEq, Repr

/-- Working registers at reset: "not defined" (R23, R46); zero is a DESIGN CHOICE (log 1). -/
def HCtx.reset : HCtx :=
  { t := 0, m := 0, cur := 0, k := 0, cnt := 0, frf := 0, code := 0, hb := [0, 0, 0, 0] }

/-- Working registers at reset: "not defined" (R23, R46); zero is a DESIGN CHOICE (log 1). -/
def ICtx.reset : ICtx :=
  { f := 0, a := 0, n := 0, icnt := 0, it := 0, im := 0, rssiRaw := 0, snrRaw := 0 }

/-- SLOT at reset: valid = 0, the other fields "not defined" (R43, R46); zero is a DESIGN CHOICE (log 2). -/
def Slot.reset : Slot :=
  { valid := false, srcAddress := 0, dstAddress := 0, sequenceNumber := 0, payloadLength := 0, count := 0,
    payload := [], rssi := 0, snrRaw := 0 }

/-- The environment at reset: any target, nothing laid down (log 5, log 6). -/
def Env.reset : Env :=
  { kind := .arbitrary, tmem := [], answers := [], draws := 0, script := [], turns := 0 }

/-- Block reset (R46), in the default configuration. -/
def State.reset : State :=
  { cfg := defaultConfig
    hupc := .idle
    iupc := .idle
    hctx := HCtx.reset
    ictx := ICtx.reset
    txb := List.replicate 255 0
    rxbuf := List.replicate 255 0
    txDone := false
    mode := .standby
    lock := .free
    hdr := .unknown
    freq := 0
    armed := .none
    rxcb := false
    txcb := false
    drv := .absent
    pinsReady := false
    seq := 0
    pcnt := 0
    cs := .undriven
    rst := .undriven
    slot := Slot.reset
    pendRx := false
    pendTx := false
    spiFrame := none
    env := Env.reset
    out := [] }

end Sys2Proof.Machine
end

