-- ==== Sys2Proof/Machine/Operands.lean ====
section
/-! DEFINITION. Operand assembly and transformation (spec/30_encoding.md R107 to R117), the status reads' transforms
(spec/43_status_reads.md R204), the packet frame (R108 to R110) and the response fields (R101, R105). -/

namespace Sys2Proof.Machine

/-! ## Clamping and codes -/

/-- `clamp(x, lo, hi) = min(max(x, lo), hi)` (R11). -/
def clamp (x lo hi : Nat) : Nat := min (max x lo) hi

/-- Spreading-factor code, `clamp(sf, 6, 12)` (R111, R114). -/
def sfCode (sf : Byte) : Byte := BitVec.ofNat 8 (clamp sf.toNat sfMin sfMax)

/-- Coding-rate code, `clamp(d, 5, 8) - 4` (R111, R114). -/
def crCode (denominator : Byte) : Byte := BitVec.ofNat 8 (clamp denominator.toNat crMin crMax - 4)

/-- Frequency word, floor division, saturated to 24 bits (R112). -/
def frfWord (c : Config) (frequency : Hz) : BitVec 24 :=
  BitVec.ofNat 24 (min (frequency.toNat * 2 ^ c.frfShift / c.fXoscHz) 0xFFFFFF)

/-- The least index, counted from `i`, of a bin that holds `bandwidth`. -/
def binIndex (bandwidth : Nat) : List Nat → Nat → Option Nat
  | [], _ => none
  | bin :: rest, i => if bandwidth ≤ bin then some i else binIndex bandwidth rest (i + 1)

/-- Bandwidth code (R113): the least bin that holds the operand, else BW_FALLBACK_CODE. -/
def bwCode (c : Config) (bandwidth : Hz) : BitVec 4 :=
  match binIndex bandwidth.toNat c.bwBins 0 with
  | some i => BitVec.ofNat 4 i
  | none => c.bwFallbackCode

/-- Mode byte, `OPMODE_LONG_RANGE | code` (R116). -/
def modeByte (c : Config) (code : Byte) : Byte := c.opmodeLongRange ||| code

/-! ## Bit fields of shared registers (R144) -/

/-- A field's code at its place, inside its mask. -/
def fieldBits (f : BitField) (code : Byte) : Byte := (code <<< f.shift) &&& f.mask

/-- The bits of a one-bit field. -/
def flagBits (mask : Byte) (on : Bool) : Byte := if on then mask else 0

/-- `(T & ~mask) | bits` (R144). -/
def mergeField (old mask bits : Byte) : Byte := (old &&& ~~~mask) ||| bits

/-- Tx-power byte (R115), one whole byte of the three fields of REG_PA_CONFIG (R67): for PA_BOOST, PA select 1, max power
0 and the level less 2; for RFO, PA select 0, max power 7 and the level. -/
def powerByte (c : Config) (level : Byte) : Byte :=
  match c.paSelect with
  | .paBoost =>
    flagBits c.paSelectMask true |||
      fieldBits c.paOutputPower (BitVec.ofNat 8 (clamp level.toNat txpBoostMin txpBoostMax - 2))
  | .rfo =>
    fieldBits c.paMaxPower 7 ||| fieldBits c.paOutputPower (BitVec.ofNat 8 (clamp level.toNat txpRfoMin txpRfoMax))

/-! ## WRITE's capacity (R155, R117 c, d) -/

/-- `K = min(n, 255 - CUR)`. -/
def writeCount (n : Nat) (cur : Byte) : Byte := BitVec.ofNat 8 (min n (maxPktLength - cur.toNat))

/-! ## Status reads (R204) -/

/-- `rssi_of(raw, freq)` over integers: the band test is an unsigned, strict comparison (R202, R117 f, i). -/
def rssiOf (raw : Byte) (freq : Hz) : Int :=
  (raw.toNat : Int) - (if freq.toNat < rssiBandHz then rssiOffLow else rssiOffHigh)

/-- `snr_of(raw) = raw / 4` in dB, `raw` read as unsigned (R203, R204, D31, log 16). -/
def snrOf (raw : Byte) : Rat := (raw.toNat : Rat) * snrStep

/-- The two-byte `rssi` result: 16-bit two's complement, most significant byte first (R102). -/
def rssiBytes (rssi : Int) : List Byte := bytes16 (BitVec.ofInt 16 rssi)

/-! ## The packet frame (R108 to R110) -/

/-- Header `[src_address, dst_address, SEQ, n]` (R109). -/
def frameHeader (src dst seq : Byte) (n : Nat) : List Byte := [src, dst, seq, BitVec.ofNat 8 n]

/-- The frame of one packet: four header bytes, then the payload (R108). -/
def frameBytes (src dst seq : Byte) (payload : List Byte) : List Byte :=
  frameHeader src dst seq payload.length ++ payload

/-- Header decoding of a raw payload of N > 4 bytes (R110, R250 c5): the declared length is stored, never checked. -/
def parseFrame (raw : List Byte) (rssi : Int) (snrRaw : Byte) : Slot :=
  { valid := true
    srcAddress := raw.getD 0 0
    dstAddress := raw.getD 1 0
    sequenceNumber := raw.getD 2 0
    payloadLength := raw.getD 3 0
    count := BitVec.ofNat 8 (raw.length - headerLen)
    payload := raw.drop headerLen
    rssi := rssi
    snrRaw := snrRaw }

/-- The command port loads the operand bytes into TXB[0 .. n-1] (R24, R77); TXB has 255 bytes. DESIGN CHOICE
(log 24): the bytes beyond the operand keep what stood there. -/
def loadBuffer (old data : List Byte) : List Byte := (data ++ old.drop data.length).take 255

/-! ## Status codes and result bytes (R101, R104, R105) -/

/-- The status codes of R104. -/
inductive Status where
  | ok
  | unsupportedDevice
  | transmitTimeout
  | malformedFrame
  | interruptAnomaly
  | illegalCommand
  | payloadTooLong
  | notConstructed
  | pinsNotReady
  deriving DecidableEq, Repr

/-- The code of a status (R104). -/
def statusCode (m : StatusMap) : Status → Byte
  | .ok => m.ok
  | .unsupportedDevice => m.unsupportedDevice
  | .transmitTimeout => m.transmitTimeout
  | .malformedFrame => m.malformedFrame
  | .interruptAnomaly => m.interruptAnomaly
  | .illegalCommand => m.illegalCommand
  | .payloadTooLong => m.payloadTooLong
  | .notConstructed => m.notConstructed
  | .pinsNotReady => m.pinsNotReady

/-- The reason byte of an InterruptAnomaly (R260). -/
def reasonCode : AnomalyReason → Byte
  | .flagAbsent => 1
  | .badReception => 2
  | .noCallback => 3

/-- READ_PACKET's result bytes (R101, R214). -/
def slotResult (slot : Slot) : List Byte :=
  if slot.valid then
    [1, slot.srcAddress, slot.dstAddress, slot.sequenceNumber, slot.payloadLength, slot.count] ++
      slot.payload.take slot.count.toNat ++ rssiBytes slot.rssi ++ [slot.snrRaw]
  else [0]

end Sys2Proof.Machine
end

