-- ==== Sys2Proof/Machine/Flags.lean ====
section
/-! DEFINITION. Every flag test of the block: the bits of the IRQ-flags byte F (spec/10_state.md R31,
spec/60_exceptions.md R247 r4, R251 t4), TXDONE and the poll loop (R212 s15), the loop indices, and the test of
who may step (spec/20_memory.md R73). The block has no arithmetic condition codes (R31). -/

namespace Sys2Proof.Machine

/-- Some bit of `mask` is set in the flags byte. -/
def flagSet (f mask : Byte) : Bool := f &&& mask != 0

/-- R247 r4: the anomaly ISR_RX reports, in the order absent RX done, bad reception, no callback (R254 c). -/
def rxAnomaly (c : Config) (f : Byte) (rxcb : Bool) : Option AnomalyReason :=
  if !flagSet f c.irqRxDone then some .flagAbsent
  else if flagSet f (c.irqCrcError ||| c.irqRxTimeout) then some .badReception
  else if !rxcb then some .noCallback
  else none

/-- R251 t4: the anomaly ISR_TX reports, in the order absent TX done, no callback (R254 c). -/
def txAnomaly (c : Config) (f : Byte) (txcb : Bool) : Option AnomalyReason :=
  if !flagSet f c.irqTxDone then some .flagAbsent
  else if !txcb then some .noCallback
  else none

/-- R212 s15: the loop's test, `TXDONE = 0 and PCNT < POLL_MAX`. -/
def pollAgain (s : State) : Bool := !s.txDone && decide (s.pcnt.toNat < s.cfg.pollMax.toNat)

/-- The header mode a boolean operand asks for (R187). -/
def wantedHeader (implicit : Bool) : HdrMode := if implicit then .implicit else .explicit

/-- ICTX stands at an `acquire LOCK` (r1 or t1). -/
def atAcquire : IUpc → Bool
  | .isrRx .r1 => true
  | .isrTx .t1 => true
  | _ => false

/-- R73, R253: in a configuration with ICTX_PREEMPTS, HCTX takes no step while IUPC is not Idle, except while ICTX waits
at `acquire LOCK`. -/
def hostBlocked (s : State) : Bool :=
  s.cfg.ictxPreempts && s.iupc != .idle && !(atAcquire s.iupc && s.lock != .free)

end Sys2Proof.Machine
end

