-- ==== Sys2Proof/Machine/Ops.lean ====
section
/-! DEFINITION. The shared operations: memory of the reference target, the two transfers (spec/40_transport.md R141 to
R145), responses and diagnostics (spec/30_encoding.md R105, spec/60_exceptions.md R261), the lock (R33), and taking
and ending an interrupt service (R244, R245, R248, R249). -/

namespace Sys2Proof.Machine

/-! ## The target space as memory -/

/-- The byte at an address; an unlisted address reads 0x00 (R81). -/
def Memory.read : Memory → Nat → Byte
  | [], _ => 0#8
  | (b, w) :: rest, a => if a = b then w else Memory.read rest a

/-- Write one byte, keeping addresses rising and no entry 0x00. -/
def Memory.write : Memory → Nat → Byte → Memory
  | [], a, v => if v = 0#8 then [] else [(a, v)]
  | (b, w) :: rest, a, v =>
    if a < b then (if v = 0#8 then (b, w) :: rest else (a, v) :: (b, w) :: rest)
    else if a = b then (if v = 0#8 then rest else (a, v) :: rest)
    else (b, w) :: Memory.write rest a v

/-- Addresses rise from `lo` on and no entry is 0x00. -/
def Memory.wfFrom : Nat → Memory → Bool
  | _, [] => true
  | lo, (a, v) :: rest => decide (lo ≤ a) && v != 0#8 && Memory.wfFrom (a + 1) rest

/-- The canonical form. -/
def Memory.wf (m : Memory) : Bool := Memory.wfFrom 0 m

/-- Address of a target register (R60): its number. -/
def regAddress (a : RegNum) : Nat := a.toNat

/-- Address of a FIFO position (R60): 256 positions above the registers. -/
def fifoAddress (p : Byte) : Nat := 256 + p.toNat

/-- TR[a] of the reference target (R80). -/
def targetReg (e : Env) (a : RegNum) : Byte := e.tmem.read (regAddress a)

/-- The FIFO position REG_FIFO_ADDR_PTR names (R69 b, R82). -/
def fifoPointer (r : RegMap) (e : Env) : Byte := targetReg e r.fifoAddrPtr

/-- Write a list of registers of the reference target. -/
def writeRegs (m : Memory) : List (RegNum × Byte) → Memory
  | [] => m
  | (a, v) :: rest => writeRegs (m.write (regAddress a) v) rest

/-- The reference target's reset values (R81). -/
def resetRegs (r : RegMap) : List (RegNum × Byte) :=
  [(r.opMode, 0x09), (r.frfMsb, 0x6C), (r.frfMid, 0x80), (r.frfLsb, 0x00), (r.paConfig, 0x4F), (r.lna, 0x20),
   (r.fifoTxBaseAddr, 0x80), (r.modemConfig1, 0x72), (r.modemConfig2, 0x70), (r.preambleLsb, 0x08),
   (r.payloadLength, 0x01), (r.syncWord, 0x12), (r.version, 0x12)]

/-- Target reset (R81): every register and FIFO byte 0x00, then the values of R81. What an arbitrary target does at reset
is its own (U6). -/
def resetTarget (r : RegMap) (e : Env) : Env :=
  match e.kind with
  | .reference => { e with tmem := writeRegs [] (resetRegs r) }
  | .arbitrary => e

/-! ## What the target answers -/

/-- The reference target answers by R82, R83; while RST is low or before the first reset it answers by draws (R86). -/
def targetLive (rst : Pin) (e : Env) : Bool := e.kind == .reference && rst == .high

/-- The next draw (R74): the byte laid down, else a free value. -/
def drawnByte (e : Env) : Byte :=
  match e.answers with
  | b :: _ => b
  | [] => Config.freeByte e.draws

/-- The environment after a draw. -/
def afterDraw (e : Env) : Env :=
  match e.answers with
  | _ :: rest => { e with answers := rest }
  | [] => { e with draws := e.draws + 1 }

/-- The byte the target shifts back in a transfer of register `a`: the prior value, for a read and for a write alike
(R69 a, R82, R83); a draw from any other target (R74). -/
def targetByte (r : RegMap) (rst : Pin) (e : Env) (a : RegNum) : Byte :=
  if targetLive rst e then
    if a = r.fifo then e.tmem.read (fifoAddress (fifoPointer r e)) else targetReg e a
  else drawnByte e

/-- `TR[REG_FIFO_ADDR_PTR] <- (p + 1) mod 256` (R82, R83), `p` the pointer before. -/
def advancePointer (r : RegMap) (p : Byte) (m : Memory) : Memory := m.write (regAddress r.fifoAddrPtr) (p + 1)

/-- The target after a read transfer (R82). -/
def targetAfterRead (r : RegMap) (rst : Pin) (e : Env) (a : RegNum) : Env :=
  if targetLive rst e then
    if a = r.fifo then { e with tmem := advancePointer r (fifoPointer r e) e.tmem } else e
  else afterDraw e

/-- The registers the target alone produces (R69 e, R83). -/
def readOnlyReg (r : RegMap) (a : RegNum) : Bool :=
  a == r.version || a == r.fifoRxCurrentAddr || a == r.rxNbBytes || a == r.pktSnrValue || a == r.pktRssiValue

/-- The reference target's memory after a write (R83). -/
def memAfterWrite (r : RegMap) (e : Env) (a : RegNum) (v : Byte) : Memory :=
  if a = r.fifo then advancePointer r (fifoPointer r e) (e.tmem.write (fifoAddress (fifoPointer r e)) v)
  else if a = r.irqFlags then e.tmem.write (regAddress a) (targetReg e a &&& ~~~v)
  else if readOnlyReg r a then e.tmem
  else e.tmem.write (regAddress a) v

/-- The target after a write transfer (R83). -/
def targetAfterWrite (r : RegMap) (rst : Pin) (e : Env) (a : RegNum) (v : Byte) : Env :=
  if targetLive rst e then { e with tmem := memAfterWrite r e a v } else afterDraw e

/-- The byte captured during the second byte of a transfer of register `a` in state `s`. -/
def captured (a : RegNum) (s : State) : Byte := targetByte s.cfg.regs s.rst s.env a

/-- The environment after a read transfer in state `s`. -/
def envAfterRead (a : RegNum) (s : State) : Env := targetAfterRead s.cfg.regs s.rst s.env a

/-- The environment after a write transfer in state `s`. -/
def envAfterWrite (a : RegNum) (v : Byte) (s : State) : Env := targetAfterWrite s.cfg.regs s.rst s.env a v

/-! ## Transfers -/

/-- One read transfer (R141): CS is low across its two bytes and high afterwards (R143). -/
def readTransfer (c : Ctx) (a : RegNum) (s : State) : State :=
  { s with
    cs := .high
    env := envAfterRead a s
    out := .transfer { ctx := c, dir := .rd, reg := a, sent := 0x00, captured := captured a s } :: s.out }

/-- One write transfer (R142): the captured byte is recorded and discarded. -/
def writeTransfer (c : Ctx) (a : RegNum) (v : Byte) (s : State) : State :=
  { s with
    cs := .high
    env := envAfterWrite a v s
    out := .transfer { ctx := c, dir := .wr, reg := a, sent := v, captured := captured a s } :: s.out }

/-- The two bytes a transfer puts on the bus (R106, R107). -/
def transferFrame (t : Transfer) : List Byte :=
  match t.dir with
  | .rd => [readAddressByte t.reg, t.sent]
  | .wr => [writeAddressByte t.reg, t.sent]

/-- The bits of one byte on the outgoing line, the first sent on the left (R106): the bit order of the SPI mode (R8). -/
def lineBits (b : Byte) : List Bool :=
  (List.range spiMode.bits).map fun k => b.getLsbD (if spiMode.msbFirst then spiMode.bits - 1 - k else k)

/-- The bits of a transfer on the outgoing line, under one assertion of CS (R106, R143). -/
def transferLine (t : Transfer) : List Bool := (transferFrame t).flatMap lineBits

/-- A read transfer of HCTX: T takes the byte (R21). Every read of HCTX is made here. -/
def hostRead (a : RegNum) (s : State) : State :=
  { readTransfer .hctx a s with hctx := { s.hctx with t := captured a s } }

/-- `MemWrite(a, 1, v)` in HCTX. -/
def hostWrite (a : RegNum) (v : Byte) (s : State) : State := writeTransfer .hctx a v s

/-- x2 of the RMW idiom in HCTX: `M <- (T & ~mask) | bits; MemWrite(a, 1, M)` (R144); the write always happens. -/
def hostMerge (a : RegNum) (mask bits : Byte) (s : State) : State :=
  hostWrite a (mergeField s.hctx.t mask bits) { s with hctx := { s.hctx with m := mergeField s.hctx.t mask bits } }

/-- A read transfer of ICTX: IT takes the byte (R22). Every read of ICTX is made here; a step that names another register
for the byte writes that one beside it (log 21). -/
def irqRead (a : RegNum) (s : State) : State :=
  { readTransfer .ictx a s with ictx := { s.ictx with it := captured a s } }

/-- `MemWrite(a, 1, v)` in ICTX. -/
def irqWrite (a : RegNum) (v : Byte) (s : State) : State := writeTransfer .ictx a v s

/-- x2 of the re-arm's RMW in ICTX, with IT and IM (R144). -/
def irqMerge (a : RegNum) (mask bits : Byte) (s : State) : State :=
  irqWrite a (mergeField s.ictx.it mask bits) { s with ictx := { s.ictx with im := mergeField s.ictx.it mask bits } }

/-! ## Responses, diagnostics, errors -/

/-- `return (status, bytes)`: the response is put on the command port and HUPC becomes Idle (R13, R27, R105). -/
def respond (status : Status) (bytes : List Byte) (s : State) : State :=
  { s with hupc := .idle, out := .response (statusCode s.cfg.statuses status :: bytes) :: s.out }

/-- `emit Diag(code, reason, data)` (R261). -/
def emitDiag (status : Status) (reason data : Byte) (s : State) : State :=
  { s with out := .diag { code := statusCode s.cfg.statuses status, reason := reason, data := data } :: s.out }

/-- `raise X(data)` in HCTX: the Diag event, then the response with the status alone (R261, R105). -/
def raiseHost (status : Status) (data : Byte) (s : State) : State :=
  respond status [] (emitDiag status 0x00 data s)

/-! ## The lock (R33) -/

/-- `release LOCK`. -/
def releaseLock (s : State) : State := { s with lock := .free }

/-! ## The interrupt: taking it and ending it -/

/-- The edge rule (R244): the edge is attributed to the handler attached at its moment; with none it is lost. -/
def edgeRule (s : State) : State :=
  match s.armed with
  | .rxDone => { s with pendRx := true }
  | .txDone => { s with pendTx := true }
  | .none => s

/-- The two interrupt services (R240). -/
inductive Service where
  | rx
  | tx
  deriving DecidableEq, Repr

/-- Taking the interrupt (R245, R248): the latch is cleared and IUPC goes to the service's first step. Nothing is saved;
LOCK, ARMED and MODE are as they were. -/
def takeInterrupt (v : Service) (s : State) : State :=
  match v with
  | .rx => { s with pendRx := false, iupc := .isrRx .r1 }
  | .tx => { s with pendTx := false, iupc := .isrTx .t1 }

/-- Which latched service a dispatch takes (R245): with both latches set it is the free choice `txFirst`. -/
def pendingService (txFirst : Bool) (s : State) : Option Service :=
  if s.pendRx && !(s.pendTx && txFirst) then some .rx else if s.pendTx then some .tx else none

/-- The dispatch rule (R245): enabled when IUPC = Idle and a latch is set; ARMED is not looked at again. -/
def dispatchRule (txFirst : Bool) (s : State) : State :=
  match s.iupc with
  | .idle =>
    match pendingService txFirst s with
    | some v => takeInterrupt v s
    | none => s
  | _ => s

/-- The end of a service (R249): nothing is restored. -/
def endService (s : State) : State := { s with iupc := .idle }

/-- `release LOCK; raise InterruptAnomaly(reason, F)` (R247 r11, R251 t8): Diag only, no command's status changes. -/
def raiseAnomaly (reason : AnomalyReason) (s : State) : State :=
  endService (emitDiag .interruptAnomaly (reasonCode reason) s.ictx.f (releaseLock s))

end Sys2Proof.Machine
end

