-- ==== Sys2Proof/Machine/SetterSteps.lean ====
section
/-! DEFINITION. The atomic steps of the nine setters (spec/42_config_setters.md R180 to R189): first each step's effect,
which INIT and RECEIVE inline, then the steps as commands of their own. -/

namespace Sys2Proof.Machine

/-! ## The effects of the steps -/

/-- f1 (R181): FREQ takes the operand itself; the high byte of the word is written. -/
def freqMsb (frequency : Hz) (s : State) : State :=
  hostWrite s.cfg.regs.frfMsb ((frfWord s.cfg frequency).extractLsb' 16 8)
    { s with freq := frequency, hctx := { s.hctx with frf := frfWord s.cfg frequency } }

/-- f2 (R181). -/
def freqMid (s : State) : State := hostWrite s.cfg.regs.frfMid (s.hctx.frf.extractLsb' 8 8) s

/-- f3 (R181). -/
def freqLsb (s : State) : State := hostWrite s.cfg.regs.frfLsb (s.hctx.frf.extractLsb' 0 8) s

/-- SET_BANDWIDTH x1 (R182). -/
def bandwidthRead (bandwidth : Hz) (s : State) : State :=
  hostRead s.cfg.regs.modemConfig1 { s with hctx := { s.hctx with code := bwCode s.cfg bandwidth } }

/-- SET_BANDWIDTH x2 (R182). -/
def bandwidthMerge (s : State) : State :=
  hostMerge s.cfg.regs.modemConfig1 s.cfg.bwField.mask (fieldBits s.cfg.bwField (s.hctx.code.zeroExtend 8)) s

/-- SET_SF x1 (R183). -/
def sfRead (s : State) : State := hostRead s.cfg.regs.modemConfig2 s

/-- SET_SF x2 (R183). -/
def sfMerge (sf : Byte) (s : State) : State :=
  hostMerge s.cfg.regs.modemConfig2 s.cfg.sfField.mask (fieldBits s.cfg.sfField (sfCode sf)) s

/-- SET_CR x1 (R184). -/
def crRead (s : State) : State := hostRead s.cfg.regs.modemConfig1 s

/-- SET_CR x2 (R184). -/
def crMerge (denominator : Byte) (s : State) : State :=
  hostMerge s.cfg.regs.modemConfig1 s.cfg.crField.mask (fieldBits s.cfg.crField (crCode denominator)) s

/-- m1 (R185). -/
def preambleMsb (len : BitVec 16) (s : State) : State := hostWrite s.cfg.regs.preambleMsb (len.extractLsb' 8 8) s

/-- m2 (R185). -/
def preambleLsb (len : BitVec 16) (s : State) : State := hostWrite s.cfg.regs.preambleLsb (len.extractLsb' 0 8) s

/-- y1 (R186). -/
def syncWrite (sync : Byte) (s : State) : State := hostWrite s.cfg.regs.syncWord sync s

/-- h1 where HDR does not match (R187), and i12 (R152): HDR is updated before the write reaches the target. -/
def headerRead (implicit : Bool) (s : State) : State :=
  hostRead s.cfg.regs.modemConfig1 { s with hdr := wantedHeader implicit }

/-- h2 (R187): `T | 0x01` or `T & 0xFE`. -/
def headerMerge (implicit : Bool) (s : State) : State :=
  hostMerge s.cfg.regs.modemConfig1 s.cfg.implicitMask (flagBits s.cfg.implicitMask implicit) s

/-- ENABLE_CRC x1 (R188). -/
def crcRead (s : State) : State := hostRead s.cfg.regs.modemConfig2 s

/-- ENABLE_CRC x2 (R188): `T | 0x04` or `T & 0xFB`. -/
def crcMerge (enable : Bool) (s : State) : State :=
  hostMerge s.cfg.regs.modemConfig2 s.cfg.crcMask (flagBits s.cfg.crcMask enable) s

/-- p1 (R189). -/
def powerWrite (level : Byte) (s : State) : State :=
  hostWrite s.cfg.regs.paConfig (powerByte s.cfg level) s

/-! ## The setters as commands -/

/-- SET_FREQUENCY (R181). -/
def stepSetFrequency (frequency : Hz) (k : FreqStep) (s : State) : State :=
  match k with
  | .f1 => { freqMsb frequency s with hupc := .setFrequency frequency .f2 }
  | .f2 => { freqMid s with hupc := .setFrequency frequency .f3 }
  | .f3 => respond .ok [] (freqLsb s)

/-- SET_BANDWIDTH (R182). -/
def stepSetBandwidth (bandwidth : Hz) (k : RmwStep) (s : State) : State :=
  match k with
  | .x1 => { bandwidthRead bandwidth s with hupc := .setBandwidth bandwidth .x2 }
  | .x2 => respond .ok [] (bandwidthMerge s)

/-- SET_SF (R183). -/
def stepSetSf (sf : Byte) (k : RmwStep) (s : State) : State :=
  match k with
  | .x1 => { sfRead s with hupc := .setSf sf .x2 }
  | .x2 => respond .ok [] (sfMerge sf s)

/-- SET_CR (R184). -/
def stepSetCr (denominator : Byte) (k : RmwStep) (s : State) : State :=
  match k with
  | .x1 => { crRead s with hupc := .setCr denominator .x2 }
  | .x2 => respond .ok [] (crMerge denominator s)

/-- SET_PREAMBLE (R185). -/
def stepSetPreamble (len : BitVec 16) (k : PreambleStep) (s : State) : State :=
  match k with
  | .m1 => { preambleMsb len s with hupc := .setPreamble len .m2 }
  | .m2 => respond .ok [] (preambleLsb len s)

/-- SET_SYNC (R186). -/
def stepSetSync (sync : Byte) (s : State) : State := respond .ok [] (syncWrite sync s)

/-- ENABLE_CRC (R188): there is no tracked state, the RMW is always performed. -/
def stepEnableCrc (enable : Bool) (k : RmwStep) (s : State) : State :=
  match k with
  | .x1 => { crcRead s with hupc := .enableCrc enable .x2 }
  | .x2 => respond .ok [] (crcMerge enable s)

/-- IMPLICIT_HEADER (R187): a no-op, without a transfer, where the tracked mode already matches. -/
def stepImplicitHeader (implicit : Bool) (k : HeaderStep) (s : State) : State :=
  match k with
  | .h1 =>
    if s.hdr = wantedHeader implicit then respond .ok [] s
    else { headerRead implicit s with hupc := .implicitHeader implicit .h2 }
  | .h2 => respond .ok [] (headerMerge implicit s)

/-- SET_TX_POWER (R189). -/
def stepSetTxPower (level : Byte) (s : State) : State := respond .ok [] (powerWrite level s)

end Sys2Proof.Machine
end

