-- ==== Sys2Proof/Machine/LifecycleSteps.lean ====
section
/-! DEFINITION. The atomic steps of INIT, BEGIN_PACKET, WRITE, END_PACKET, RECEIVE, ON_RECEIVE and ON_TRANSMIT, and of the
sub-sequences seq_sleep and seq_standby (spec/41_mode_control.md R149 to R160). -/

namespace Sys2Proof.Machine

/-! ## Mode sub-sequences: the transfer and the update of MODE are one atomic step -/

/-- seq_sleep (R150). -/
def seqSleep (s : State) : State :=
  { hostWrite s.cfg.regs.opMode (modeByte s.cfg s.cfg.opmodeSleep) s with mode := .sleep }

/-- seq_standby (R151). -/
def seqStandby (s : State) : State :=
  { hostWrite s.cfg.regs.opMode (modeByte s.cfg s.cfg.opmodeStdby) s with mode := .standby }

/-! ## INIT -/

/-- i0 (R152). -/
def initEntry (s : State) : State :=
  { s with armed := .none, pendRx := false, pendTx := false, hdr := .unknown, drv := .absent }

/-- i1 (R152): the version is read once; a mismatch ends INIT. -/
def initVersion (p : RadioParameters) (s : State) : State :=
  if captured s.cfg.regs.version s = s.cfg.expectedVersion then
    { hostRead s.cfg.regs.version s with hupc := .init p .i2 }
  else raiseHost .unsupportedDevice (captured s.cfg.regs.version s) (hostRead s.cfg.regs.version s)

/-- i12 (R152): HDR is set and MODEM_CONFIG_1 is read, with no test of HDR: INIT never takes IMPLICIT_HEADER's no-op branch
(log 22). -/
def initHeader (p : RadioParameters) (s : State) : State :=
  { headerRead p.implicitHeader s with hupc := .init p .i13 }

/-- One step of INIT (R152). -/
def stepInit (p : RadioParameters) (k : InitStep) (s : State) : State :=
  match k with
  | .i0 => { initEntry s with hupc := .init p .i1 }
  | .i1 => initVersion p s
  | .i2 => { seqSleep s with hupc := .init p .i3 }
  | .i3 => { freqMsb p.frequency s with hupc := .init p .i4 }
  | .i4 => { freqMid s with hupc := .init p .i5 }
  | .i5 => { freqLsb s with hupc := .init p .i6 }
  | .i6 => { bandwidthRead p.signalBandwidth s with hupc := .init p .i7 }
  | .i7 => { bandwidthMerge s with hupc := .init p .i8 }
  | .i8 => { hostRead s.cfg.regs.lna s with hupc := .init p .i9 }
  | .i9 => { hostMerge s.cfg.regs.lna s.cfg.lnaBoostBits s.cfg.lnaBoostBits s with hupc := .init p .i10 }
  | .i10 => { hostWrite s.cfg.regs.modemConfig3 s.cfg.agcAutoValue s with hupc := .init p .i11 }
  | .i11 => { powerWrite p.txPowerLevel s with hupc := .init p .i12 }
  | .i12 => initHeader p s
  | .i13 => { headerMerge p.implicitHeader s with hupc := .init p .i14 }
  | .i14 => { sfRead s with hupc := .init p .i15 }
  | .i15 => { sfMerge p.spreadingFactor s with hupc := .init p .i16 }
  | .i16 => { crRead s with hupc := .init p .i17 }
  | .i17 => { crMerge p.codingRate s with hupc := .init p .i18 }
  | .i18 => { preambleMsb p.preambleLength s with hupc := .init p .i19 }
  | .i19 => { preambleLsb p.preambleLength s with hupc := .init p .i20 }
  | .i20 => { syncWrite p.syncWord s with hupc := .init p .i21 }
  | .i21 => { crcRead s with hupc := .init p .i22 }
  | .i22 => { crcMerge p.enableCrc s with hupc := .init p .i23 }
  | .i23 => { hostWrite s.cfg.regs.fifoTxBaseAddr s.cfg.fifoTxBaseVal s with hupc := .init p .i24 }
  | .i24 => { hostWrite s.cfg.regs.fifoRxBaseAddr s.cfg.fifoRxBaseVal s with hupc := .init p .i25 }
  | .i25 => respond .ok [] { seqStandby s with drv := .ready }

/-! ## BEGIN_PACKET, WRITE, END_PACKET: the effects SEND_PACKET inlines -/

/-- b2 (R154): the pointer is set to the constant 0. -/
def resetFifoPointer (s : State) : State := hostWrite s.cfg.regs.fifoAddrPtr 0x00 s

/-- b3 (R154). -/
def resetPayloadLength (s : State) : State := hostWrite s.cfg.regs.payloadLength 0x00 s

/-- w1 (R155): CUR is read from the target; K and CNT are set. T takes the byte beside CUR (R21; log 21). -/
def writeOpen (n : Nat) (s : State) : State :=
  { hostRead s.cfg.regs.payloadLength s with
    hctx := { s.hctx with
      t := captured s.cfg.regs.payloadLength s
      cur := captured s.cfg.regs.payloadLength s
      k := writeCount n (captured s.cfg.regs.payloadLength s)
      cnt := 0 } }

/-- One iteration of w2 (R155): the byte at CNT goes to the FIFO. -/
def writeByte (source : List Byte) (s : State) : State :=
  hostWrite s.cfg.regs.fifo (source.getD s.hctx.cnt.toNat 0)
    { s with hctx := { s.hctx with cnt := s.hctx.cnt + 1 } }

/-- w3 (R155): always performed. -/
def writeClose (s : State) : State := hostWrite s.cfg.regs.payloadLength (s.hctx.cur + s.hctx.k) s

/-- Where WRITE goes after w1 or an iteration of w2: the loop's test `CNT < K`. -/
def writeNext (s : State) : WriteStep := if s.hctx.cnt.toNat < s.hctx.k.toNat then .w2 else .w3

/-- e1 (R156): the handler attached depends on TXCB. -/
def armTransmit (s : State) : State := { s with armed := if s.txcb then .txDone else .none }

/-- e2 (R156). -/
def routeTransmit (s : State) : State := hostWrite s.cfg.regs.dioMapping1 s.cfg.dio0MapTxDone s

/-- e3 (R156). -/
def enterTx (s : State) : State :=
  { hostWrite s.cfg.regs.opMode (modeByte s.cfg s.cfg.opmodeTx) s with mode := .tx }

/-- BEGIN_PACKET (R154). -/
def stepBeginPacket (k : BeginStep) (s : State) : State :=
  match k with
  | .b1 => { seqStandby s with hupc := .beginPacket .b2 }
  | .b2 => { resetFifoPointer s with hupc := .beginPacket .b3 }
  | .b3 => respond .ok [] (resetPayloadLength s)

/-- WRITE (R155): the response carries K. -/
def stepWrite (n : Nat) (k : WriteStep) (s : State) : State :=
  match k with
  | .w1 => { writeOpen n s with hupc := .write n (writeNext (writeOpen n s)) }
  | .w2 => { writeByte s.txb s with hupc := .write n (writeNext (writeByte s.txb s)) }
  | .w3 => respond .ok [s.hctx.k] (writeClose s)

/-- END_PACKET (R156): the response comes before the transmission ends. -/
def stepEndPacket (k : EndStep) (s : State) : State :=
  match k with
  | .e1 => { armTransmit s with hupc := .endPacket (if s.txcb then .e2 else .e3) }
  | .e2 => { routeTransmit s with hupc := .endPacket .e3 }
  | .e3 => respond .ok [] (enterTx s)

/-! ## RECEIVE and callback registration -/

/-- v4 (R157): the handler attached depends on RXCB. -/
def armReceive (s : State) : State := { s with armed := if s.rxcb then .rxDone else .none }

/-- The step after the header mode is set: v3 is no step when size = 0 (R157). -/
def receiveLength (size : Byte) : ReceiveStep := if size = 0 then .v4 else .v3

/-- RECEIVE (R157). -/
def stepReceive (size : Byte) (k : ReceiveStep) (s : State) : State :=
  match k with
  | .v1 =>
    if s.hdr = wantedHeader (size != 0) then { s with hupc := .receive size (receiveLength size) }
    else { headerRead (size != 0) s with hupc := .receive size .v2 }
  | .v2 => { headerMerge (size != 0) s with hupc := .receive size (receiveLength size) }
  | .v3 => { hostWrite s.cfg.regs.payloadLength size s with hupc := .receive size .v4 }
  | .v4 => { armReceive s with hupc := .receive size (if s.rxcb then .v5 else .v6) }
  | .v5 => { hostWrite s.cfg.regs.dioMapping1 s.cfg.dio0MapRxDone s with hupc := .receive size .v6 }
  | .v6 =>
    respond .ok []
      { hostWrite s.cfg.regs.opMode (modeByte s.cfg s.cfg.opmodeRxCont) s with mode := .rxContinuous }

/-- ON_RECEIVE (R158): ARMED is unchanged. -/
def stepOnReceive (enable : Bool) (s : State) : State := respond .ok [] { s with rxcb := enable }

/-- ON_TRANSMIT (R159): ARMED is unchanged. -/
def stepOnTransmit (enable : Bool) (s : State) : State := respond .ok [] { s with txcb := enable }

end Sys2Proof.Machine
end

