-- ==== Sys2Proof/Machine/FramerSteps.lean ====
section
/-! DEFINITION. The atomic steps of ATTACH, SEND_PACKET, IS_PACKET_AVAILABLE and READ_PACKET
(spec/44_packet_protocol.md R210 to R214). -/

namespace Sys2Proof.Machine

/-- ATTACH a1 (R210). DESIGN CHOICE (log 25): the other fields of SLOT, not defined while valid = 0 (R43), keep their values. -/
def stepAttach (s : State) : State :=
  respond .ok []
    { s with rxcb := true, txcb := true, seq := 0, txDone := false, slot := { s.slot with valid := false } }

/-- s3 (R212, R33): HCTX waits while LOCK is not Free. -/
def sendAcquire (next : HUpc) (s : State) : State :=
  if s.lock = .free then { s with lock := .heldByHost, hupc := next } else s

/-- s15's test (R212): await a tick, or leave the loop. -/
def sendPoll (await leave : HUpc) (s : State) : State :=
  if pollAgain s then { s with hupc := await } else { s with hupc := leave }

/-- s16 (R212). -/
def sendFinish (s : State) : State :=
  if s.txDone then respond .ok [] s else raiseHost .transmitTimeout s.pcnt s

/-- One step of SEND_PACKET (R212). The label s8 or s9 is followed by the step of its WRITE; `s15Await` is not enabled
without a tick. -/
def stepSendPacket (src dst : Byte) (n : Nat) (k : SendStep) (s : State) : State :=
  match k with
  | .s1 => { s with seq := s.seq + 1, hupc := .sendPacket src dst n .s2 }
  | .s2 => { s with txDone := false, hupc := .sendPacket src dst n .s3 }
  | .s3 => sendAcquire (.sendPacket src dst n .s4) s
  | .s4 => { seqStandby s with hupc := .sendPacket src dst n .s5 }
  | .s5 => { resetFifoPointer s with hupc := .sendPacket src dst n .s6 }
  | .s6 => { resetPayloadLength s with hupc := .sendPacket src dst n .s7 }
  | .s7 =>
    { s with
      hctx := { s.hctx with hb := frameHeader src dst s.seq n }
      hupc := .sendPacket src dst n (.s8 .w1) }
  | .s8 .w1 =>
    { writeOpen headerLen s with hupc := .sendPacket src dst n (.s8 (writeNext (writeOpen headerLen s))) }
  | .s8 .w2 =>
    { writeByte s.hctx.hb s with hupc := .sendPacket src dst n (.s8 (writeNext (writeByte s.hctx.hb s))) }
  | .s8 .w3 => { writeClose s with hupc := .sendPacket src dst n (.s9 .w1) }
  | .s9 .w1 => { writeOpen n s with hupc := .sendPacket src dst n (.s9 (writeNext (writeOpen n s))) }
  | .s9 .w2 => { writeByte s.txb s with hupc := .sendPacket src dst n (.s9 (writeNext (writeByte s.txb s))) }
  | .s9 .w3 => { writeClose s with hupc := .sendPacket src dst n .s10 }
  | .s10 => { armTransmit s with hupc := .sendPacket src dst n (if s.txcb then .s11 else .s12) }
  | .s11 => { routeTransmit s with hupc := .sendPacket src dst n .s12 }
  | .s12 => { enterTx s with hupc := .sendPacket src dst n .s13 }
  | .s13 => { releaseLock s with hupc := .sendPacket src dst n .s14 }
  | .s14 => { s with pcnt := 0, hupc := .sendPacket src dst n .s15 }
  | .s15 => sendPoll (.sendPacket src dst n .s15Await) (.sendPacket src dst n .s16) s
  | .s15Await => s
  | .s16 => sendFinish s

/-- A POLL_TICK (R270): it ends the sleep of an iteration of s15, whether the test was taken before the tick or with it;
anywhere else it has no effect and is not counted. -/
def pollTick (s : State) : State :=
  match s.hupc with
  | .sendPacket src dst n .s15 =>
    if pollAgain s then { s with pcnt := s.pcnt + 1, hupc := .sendPacket src dst n .s15 } else s
  | .sendPacket src dst n .s15Await => { s with pcnt := s.pcnt + 1, hupc := .sendPacket src dst n .s15 }
  | _ => s

/-- IS_PACKET_AVAILABLE p1 (R213). -/
def stepIsPacketAvailable (s : State) : State := respond .ok [boolByte s.slot.valid] s

/-- READ_PACKET p1 (R214): the copy-out and the clearing are one atomic step. DESIGN CHOICE (log 25): the other fields of SLOT,
not defined while valid = 0 (R43), keep their values. -/
def stepReadPacket (s : State) : State :=
  respond .ok (slotResult s.slot) { s with slot := { s.slot with valid := false } }

end Sys2Proof.Machine
end

