-- ==== Sys2Proof/Machine/Interrupt.lean ====
section
/-! DEFINITION. The interrupt services ISR_RX and ISR_TX with their callbacks and the re-arm
(spec/60_exceptions.md R246 to R252), and the reference target's events (spec/20_memory.md R84, R85). -/

namespace Sys2Proof.Machine

/-- r1, t1 (R33): ICTX waits while LOCK is not Free. -/
def irqAcquire (next : IUpc) (s : State) : State :=
  if s.lock = .free then { s with lock := .heldByIrq, iupc := next } else s

/-- r2, t2 (R246): `F <- MemRead(REG_IRQ_FLAGS, 1)`. -/
def readFlags (s : State) : State :=
  { irqRead s.cfg.regs.irqFlags s with
    ictx := { s.ictx with it := captured s.cfg.regs.irqFlags s, f := captured s.cfg.regs.irqFlags s } }

/-- r3, t3 (R246): exactly the byte read is written back. -/
def clearFlags (s : State) : State := irqWrite s.cfg.regs.irqFlags s.ictx.f s

/-- r5 (R247). -/
def readRxAddress (s : State) : State :=
  { irqRead s.cfg.regs.fifoRxCurrentAddr s with
    ictx := { s.ictx with
      it := captured s.cfg.regs.fifoRxCurrentAddr s
      a := captured s.cfg.regs.fifoRxCurrentAddr s } }

/-- The length register r7 reads (R247, D13, D19): Unknown counts as Explicit. -/
def lengthReg (s : State) : RegNum :=
  match s.hdr with
  | .implicit => s.cfg.regs.payloadLength
  | .explicit => s.cfg.regs.rxNbBytes
  | .unknown => s.cfg.regs.rxNbBytes

/-- r7 (R247). -/
def readRxLength (s : State) : State :=
  { irqRead (lengthReg s) s with
    ictx := { s.ictx with it := captured (lengthReg s) s, n := captured (lengthReg s) s, icnt := 0 } }

/-- One iteration of r8 (R247). DESIGN CHOICE (log 24): RXBUF from N on, not defined by R24, keeps the bytes of earlier
receptions. -/
def readRxByte (s : State) : State :=
  { irqRead s.cfg.regs.fifo s with
    rxbuf := s.rxbuf.set s.ictx.icnt.toNat (captured s.cfg.regs.fifo s)
    ictx := { s.ictx with it := captured s.cfg.regs.fifo s, icnt := s.ictx.icnt + 1 } }

/-- Where ISR_RX goes after r7 or an iteration of r8: the loop's test `ICNT < N`. -/
def rxNext (s : State) : RxStep := if s.ictx.icnt.toNat < s.ictx.n.toNat then .r8 else .r9

/-- The raw payload the receive callback gets: RXBUF[0 .. N-1] (R25). -/
def rawPayload (s : State) : List Byte := s.rxbuf.take s.ictx.n.toNat

/-- c1 (R250): a raw payload of N <= 4 bytes is malformed; the slot is left as it is. -/
def checkFrame (s : State) : State :=
  if s.ictx.n.toNat ≤ headerLen then
    { emitDiag .malformedFrame 0x00 s.ictx.n s with iupc := .isrRx (.c6 .v1) }
  else { s with iupc := .isrRx .c2 }

/-- c2 (R250). -/
def readRssi (s : State) : State :=
  { irqRead s.cfg.regs.pktRssiValue s with
    ictx := { s.ictx with
      it := captured s.cfg.regs.pktRssiValue s
      rssiRaw := captured s.cfg.regs.pktRssiValue s } }

/-- c3 (R250). -/
def readSnr (s : State) : State :=
  { irqRead s.cfg.regs.pktSnrValue s with
    ictx := { s.ictx with it := captured s.cfg.regs.pktSnrValue s, snrRaw := captured s.cfg.regs.pktSnrValue s } }

/-- c5 (R250): the slot is overwritten whole. -/
def storePacket (rssi : Int) (s : State) : State :=
  { s with slot := parseFrame (rawPayload s) rssi s.ictx.snrRaw }

/-- The re-arm, RECEIVE with size 0 in ICTX (R250 c6, R252 d2); `at_` names the pointer of its next step. -/
def stepRearm (at_ : RearmStep → IUpc) (k : RearmStep) (s : State) : State :=
  match k with
  | .v1 =>
    if s.hdr = .explicit then { s with iupc := at_ .v4 }
    else { irqRead s.cfg.regs.modemConfig1 { s with hdr := .explicit } with iupc := at_ .v2 }
  | .v2 =>
    { irqMerge s.cfg.regs.modemConfig1 s.cfg.implicitMask (flagBits s.cfg.implicitMask false) s with
      iupc := at_ .v4 }
  | .v4 => { armReceive s with iupc := if s.rxcb then at_ .v5 else at_ .v6 }
  | .v5 => { irqWrite s.cfg.regs.dioMapping1 s.cfg.dio0MapRxDone s with iupc := at_ .v6 }
  | .v6 =>
    endService
      { irqWrite s.cfg.regs.opMode (modeByte s.cfg s.cfg.opmodeRxCont) s with mode := .rxContinuous }

/-- One step of ISR_RX and the receive callback (R247, R250). -/
def stepIsrRx (k : RxStep) (s : State) : State :=
  match k with
  | .r1 => irqAcquire (.isrRx .r2) s
  | .r2 => { readFlags s with iupc := .isrRx .r3 }
  | .r3 => { clearFlags s with iupc := .isrRx .r4 }
  | .r4 =>
    match rxAnomaly s.cfg s.ictx.f s.rxcb with
    | some reason => { s with iupc := .isrRx (.r11 reason) }
    | none => { s with iupc := .isrRx .r5 }
  | .r5 => { readRxAddress s with iupc := .isrRx .r6 }
  | .r6 => { irqWrite s.cfg.regs.fifoAddrPtr s.ictx.a s with iupc := .isrRx .r7 }
  | .r7 => { readRxLength s with iupc := .isrRx (rxNext (readRxLength s)) }
  | .r8 => { readRxByte s with iupc := .isrRx (rxNext (readRxByte s)) }
  | .r9 => { releaseLock s with iupc := .isrRx .r10 }
  | .r10 => { s with iupc := .isrRx .c1 }
  | .r11 reason => raiseAnomaly reason s
  | .c1 => checkFrame s
  | .c2 => { readRssi s with iupc := .isrRx .c3 }
  | .c3 => { readSnr s with iupc := .isrRx .c4 }
  | .c4 => { s with iupc := .isrRx (.c5 (rssiOf s.ictx.rssiRaw s.freq)) }
  | .c5 rssi => { storePacket rssi s with iupc := .isrRx (.c6 .v1) }
  | .c6 v => stepRearm (fun k => .isrRx (.c6 k)) v s

/-- One step of ISR_TX and the transmit callback (R251, R252). -/
def stepIsrTx (k : TxStep) (s : State) : State :=
  match k with
  | .t1 => irqAcquire (.isrTx .t2) s
  | .t2 => { readFlags s with iupc := .isrTx .t3 }
  | .t3 => { clearFlags s with iupc := .isrTx .t4 }
  | .t4 =>
    match txAnomaly s.cfg s.ictx.f s.txcb with
    | some reason => { s with iupc := .isrTx (.t8 reason) }
    | none => { s with iupc := .isrTx .t5 }
  | .t5 => { s with armed := .none, iupc := .isrTx .t6 }
  | .t6 => { releaseLock s with iupc := .isrTx .t7 }
  | .t7 => { s with iupc := .isrTx .d1 }
  | .t8 reason => raiseAnomaly reason s
  | .d1 => { s with txDone := true, iupc := .isrTx (.d2 .v1) }
  | .d2 v => stepRearm (fun k => .isrTx (.d2 k)) v s

/-! ## The reference target's events -/

/-- The mode field the reference target sees, TR[REG_OP_MODE][2:0]. -/
def targetMode (s : State) : BitVec 3 := (targetReg s.env s.cfg.regs.opMode).extractLsb' 0 3

/-- The routing field the reference target sees, TR[REG_DIO_MAPPING_1][7:6]. -/
def targetRouting (s : State) : BitVec 2 := (targetReg s.env s.cfg.regs.dioMapping1).extractLsb' 6 2

/-- The reference target delivers a DIO0 edge if its routing field selects the event (R84, R85). -/
def routedEdge (routed : Bool) (s : State) : State := if routed then edgeRule s else s

/-- The registers TxComplete writes (R84). -/
def txCompleteRegs (s : State) : List (RegNum × Byte) :=
  [(s.cfg.regs.irqFlags, targetReg s.env s.cfg.regs.irqFlags ||| 0x08),
   (s.cfg.regs.opMode, (targetReg s.env s.cfg.regs.opMode &&& 0xF8) ||| 0x01)]

/-- TxComplete (R84), enabled in the target's mode 3 whatever RST is (R140: an edge the target makes during reset is latched
like any other): TX done is flagged, the mode field becomes 1, and an edge comes if DIO0 is routed to TX done. -/
def txCompleteEvent (s : State) : State :=
  if s.env.kind == .reference && targetMode s == 3 then
    routedEdge (targetRouting s == 1)
      { s with env := { s.env with tmem := writeRegs s.env.tmem (txCompleteRegs s) } }
  else s

/-- The packet's bytes at TFIFO[(start + i) mod 256] (R85). -/
def writeFifo (m : Memory) (p : Byte) : List Byte → Memory
  | [] => m
  | b :: rest => writeFifo (m.write (fifoAddress p) b) (p + 1) rest

/-- The registers RxPacket writes (R85). -/
def rxPacketRegs (len : Nat) (crcError : Bool) (rssiRaw snrRaw : Byte) (s : State) : List (RegNum × Byte) :=
  [(s.cfg.regs.fifoRxCurrentAddr, targetReg s.env s.cfg.regs.fifoRxBaseAddr),
   (s.cfg.regs.rxNbBytes, BitVec.ofNat 8 len),
   (s.cfg.regs.pktRssiValue, rssiRaw),
   (s.cfg.regs.pktSnrValue, snrRaw),
   (s.cfg.regs.irqFlags,
     targetReg s.env s.cfg.regs.irqFlags ||| 0x40 ||| (if crcError then 0x20 else 0x00))]

/-- RxPacket (R85), for 1 to 255 bytes, enabled in the target's mode 5 whatever RST is (R140). -/
def rxPacketEvent (bytes : List Byte) (crcError : Bool) (rssiRaw snrRaw : Byte) (s : State) : State :=
  if s.env.kind == .reference && targetMode s == 5 && decide (1 ≤ bytes.length ∧ bytes.length ≤ 255) then
    routedEdge (targetRouting s == 0)
      { s with env := { s.env with
          tmem := writeRegs (writeFifo s.env.tmem (targetReg s.env s.cfg.regs.fifoRxBaseAddr) bytes)
            (rxPacketRegs bytes.length crcError rssiRaw snrRaw s) } }
  else s

end Sys2Proof.Machine
end

