-- ==== Sys2Proof/Machine/StatusSteps.lean ====
section
/-! DEFINITION. The atomic steps of the status reads (spec/43_status_reads.md R200 to R203): each is one read transfer. -/

namespace Sys2Proof.Machine

/-- PACKET_RSSI q1 (R202). -/
def stepPacketRssi (s : State) : State :=
  respond .ok (rssiBytes (rssiOf (captured s.cfg.regs.pktRssiValue s) s.freq)) (hostRead s.cfg.regs.pktRssiValue s)

/-- PACKET_SNR q1 (R203): the raw byte is handed out. -/
def stepPacketSnr (s : State) : State :=
  respond .ok [captured s.cfg.regs.pktSnrValue s] (hostRead s.cfg.regs.pktSnrValue s)

end Sys2Proof.Machine
end

