-- ==== Sys2Proof/Machine/TransportSteps.lean ====
section
/-! DEFINITION. The atomic steps of RESET_PINS (spec/40_transport.md R140). -/

namespace Sys2Proof.Machine

/-- Drive chip-select. -/
def driveCs (level : Pin) (s : State) : State := { s with cs := level, out := .csPin level :: s.out }

/-- Drive the target's reset line; the reference target resets when it rises (R81, R140). -/
def driveRst (level : Pin) (s : State) : State :=
  match level with
  | .high => { s with rst := .high, env := resetTarget s.cfg.regs s.env, out := .rstPin .high :: s.out }
  | _ => { s with rst := level, out := .rstPin level :: s.out }

/-- One step of RESET_PINS (R140). The holds s3 and s5 are steps whose length is not measured (R320). -/
def stepResetPins (k : ResetStep) (s : State) : State :=
  match k with
  | .s1 => { driveCs .high s with hupc := .resetPins .s2 }
  | .s2 => { driveRst .low s with hupc := .resetPins .s3 }
  | .s3 => { s with hupc := .resetPins .s4 }
  | .s4 => { driveRst .high s with hupc := .resetPins .s5 }
  | .s5 => { s with hupc := .resetPins .s6 }
  | .s6 => respond .ok [] { s with pinsReady := true }

end Sys2Proof.Machine
end

