-- ==== Sys2Proof/Machine/Schedule.lean ====
section
/-! DEFINITION. Who steps and when: the atomic step of each context, one move of one agent, a run of moves, and the
admission of a command (spec/00_scope.md R13, R14, R19; spec/10_state.md R26 to R28; spec/20_memory.md R72, R73;
spec/60_exceptions.md R263). -/

namespace Sys2Proof.Machine

/-- HCTX's next atomic step: the one HUPC names (R27). -/
def hostStep (s : State) : State :=
  match s.hupc with
  | .idle => s
  | .resetPins k => stepResetPins k s
  | .init p k => stepInit p k s
  | .beginPacket k => stepBeginPacket k s
  | .write n k => stepWrite n k s
  | .endPacket k => stepEndPacket k s
  | .receive size k => stepReceive size k s
  | .onReceive e => stepOnReceive e s
  | .onTransmit e => stepOnTransmit e s
  | .setFrequency f k => stepSetFrequency f k s
  | .setBandwidth w k => stepSetBandwidth w k s
  | .setSf b k => stepSetSf b k s
  | .setCr b k => stepSetCr b k s
  | .setPreamble p k => stepSetPreamble p k s
  | .setSync b => stepSetSync b s
  | .enableCrc e k => stepEnableCrc e k s
  | .implicitHeader e k => stepImplicitHeader e k s
  | .setTxPower b => stepSetTxPower b s
  | .packetRssi => stepPacketRssi s
  | .packetSnr => stepPacketSnr s
  | .attach => stepAttach s
  | .sendPacket src dst n k => stepSendPacket src dst n k s
  | .isPacketAvailable => stepIsPacketAvailable s
  | .readPacket => stepReadPacket s

/-- ICTX's next atomic step: the one IUPC names (R28). -/
def irqStep (s : State) : State :=
  match s.iupc with
  | .idle => s
  | .isrRx k => stepIsrRx k s
  | .isrTx k => stepIsrTx k s

/-- One move of one agent. A move that is not enabled changes nothing: the context waits (R14, R33), a tick is not
counted (R270), the host does not submit while HUPC is not Idle (R27; `step` handles a submission while it is). -/
def turn (t : Turn) (s : State) : State :=
  match t with
  | .submit _ => s
  | .host => if hostBlocked s then s else hostStep s
  | .irq => irqStep s
  | .dispatch txFirst => dispatchRule txFirst s
  | .edge => edgeRule s
  | .tick => if hostBlocked s then s else pollTick s
  | .txComplete => txCompleteEvent s
  | .rxPacket bytes crcError rssiRaw snrRaw => rxPacketEvent bytes crcError rssiRaw snrRaw s

/-- Lay down the coming moves. -/
def setScript (moves : List Turn) (s : State) : State := { s with env := { s.env with script := moves } }

/-- Run the moves laid down until the command's response is out (HUPC = Idle) or no move is left. -/
def runScript : List Turn → State → State
  | [], s => setScript [] s
  | t :: rest, s =>
    match s.hupc with
    | .idle => setScript (t :: rest) s
    | _ => runScript rest (turn t s)

/-! ## Admission (R14, R149, R263) -/

/-- Admission of every command but RESET_PINS and INIT. -/
def needsDriver (s : State) : Option Status :=
  match s.drv with
  | .ready => none
  | .absent => some .notConstructed

/-- Admission of INIT. -/
def needsPins (s : State) : Option Status := if s.pinsReady then none else some .pinsNotReady

/-- Admission of SEND_PACKET (R119, R212, R263). -/
def needsFrame (n : Nat) (s : State) : Option Status :=
  match needsDriver s with
  | some status => some status
  | none => if n ≤ maxPayload then none else some .payloadTooLong

/-- The command port takes a command (R27): a refused one is answered with its status alone and changes nothing (R14); an
admitted one is accepted (its operands copied, HUPC at its first step), and the agents move as laid down until its
response is out. -/
def runCommand (refusal : Option Status) (accept : State → State) (s : State) :
    Host.Outcome State Fault Refusal :=
  match s.hupc with
  | .idle =>
    match refusal with
    | some status => .next (respond status [] s)
    | none => .next (runScript s.env.script (accept s))
  | _ => .fault .commandPortBusy

/-- Accept a command whose operands HUPC keeps. -/
def acceptAt (first : HUpc) (s : State) : State := { s with hupc := first }

/-- Accept a command whose operand bytes go to TXB (R24). -/
def acceptBytes (data : List Byte) (first : HUpc) (s : State) : State :=
  { s with hupc := first, txb := loadBuffer s.txb data }

end Sys2Proof.Machine
end

