-- ==== Sys2Proof/Machine/Framer.lean ====
section
/-! DEFINITION. The meanings of ATTACH, SEND_PACKET, IS_PACKET_AVAILABLE and READ_PACKET (spec/44_packet_protocol.md). -/

namespace Sys2Proof.Machine

/-- ATTACH (R210). -/
def execAttach (s : State) : Host.Outcome State Fault Refusal :=
  runCommand (needsDriver s) (acceptAt .attach) s

/-- SEND_PACKET (R212): a payload of more than 251 bytes is refused with PayloadTooLong (R119). -/
def execSendPacket (src dst : Byte) (payload : List Byte) (s : State) : Host.Outcome State Fault Refusal :=
  runCommand (needsFrame payload.length s) (acceptBytes payload (.sendPacket src dst payload.length .s1)) s

/-- IS_PACKET_AVAILABLE (R213). -/
def execIsPacketAvailable (s : State) : Host.Outcome State Fault Refusal :=
  runCommand (needsDriver s) (acceptAt .isPacketAvailable) s

/-- READ_PACKET (R214). -/
def execReadPacket (s : State) : Host.Outcome State Fault Refusal :=
  runCommand (needsDriver s) (acceptAt .readPacket) s

end Sys2Proof.Machine
end

