-- ==== Sys2Proof/Machine/Lifecycle.lean ====
section
/-! DEFINITION. The meanings of INIT, BEGIN_PACKET, WRITE, END_PACKET, RECEIVE, ON_RECEIVE and ON_TRANSMIT
(spec/41_mode_control.md). -/

namespace Sys2Proof.Machine

/-- INIT (R152). -/
def execInit (p : RadioParameters) (s : State) : Host.Outcome State Fault Refusal :=
  runCommand (needsPins s) (acceptAt (.init p .i0)) s

/-- BEGIN_PACKET (R154). -/
def execBeginPacket (s : State) : Host.Outcome State Fault Refusal :=
  runCommand (needsDriver s) (acceptAt (.beginPacket .b1)) s

/-- WRITE (R155). -/
def execWrite (data : List Byte) (s : State) : Host.Outcome State Fault Refusal :=
  runCommand (needsDriver s) (acceptBytes data (.write data.length .w1)) s

/-- END_PACKET (R156). -/
def execEndPacket (s : State) : Host.Outcome State Fault Refusal :=
  runCommand (needsDriver s) (acceptAt (.endPacket .e1)) s

/-- RECEIVE (R157). -/
def execReceive (size : Byte) (s : State) : Host.Outcome State Fault Refusal :=
  runCommand (needsDriver s) (acceptAt (.receive size .v1)) s

/-- ON_RECEIVE (R158). -/
def execOnReceive (enable : Bool) (s : State) : Host.Outcome State Fault Refusal :=
  runCommand (needsDriver s) (acceptAt (.onReceive enable)) s

/-- ON_TRANSMIT (R159). -/
def execOnTransmit (enable : Bool) (s : State) : Host.Outcome State Fault Refusal :=
  runCommand (needsDriver s) (acceptAt (.onTransmit enable)) s

end Sys2Proof.Machine
end

