-- ==== Sys2Proof/Machine/Setters.lean ====
section
/-! DEFINITION. The meanings of the nine setters (spec/42_config_setters.md). -/

namespace Sys2Proof.Machine

/-- SET_FREQUENCY (R181). -/
def execSetFrequency (frequency : Hz) (s : State) : Host.Outcome State Fault Refusal :=
  runCommand (needsDriver s) (acceptAt (.setFrequency frequency .f1)) s

/-- SET_BANDWIDTH (R182). -/
def execSetBandwidth (bandwidth : Hz) (s : State) : Host.Outcome State Fault Refusal :=
  runCommand (needsDriver s) (acceptAt (.setBandwidth bandwidth .x1)) s

/-- SET_SF (R183). -/
def execSetSf (sf : Byte) (s : State) : Host.Outcome State Fault Refusal :=
  runCommand (needsDriver s) (acceptAt (.setSf sf .x1)) s

/-- SET_CR (R184). -/
def execSetCr (denominator : Byte) (s : State) : Host.Outcome State Fault Refusal :=
  runCommand (needsDriver s) (acceptAt (.setCr denominator .x1)) s

/-- SET_PREAMBLE (R185). -/
def execSetPreamble (len : BitVec 16) (s : State) : Host.Outcome State Fault Refusal :=
  runCommand (needsDriver s) (acceptAt (.setPreamble len .m1)) s

/-- SET_SYNC (R186). -/
def execSetSync (sync : Byte) (s : State) : Host.Outcome State Fault Refusal :=
  runCommand (needsDriver s) (acceptAt (.setSync sync)) s

/-- ENABLE_CRC (R188). -/
def execEnableCrc (enable : Bool) (s : State) : Host.Outcome State Fault Refusal :=
  runCommand (needsDriver s) (acceptAt (.enableCrc enable .x1)) s

/-- IMPLICIT_HEADER (R187). -/
def execImplicitHeader (implicit : Bool) (s : State) : Host.Outcome State Fault Refusal :=
  runCommand (needsDriver s) (acceptAt (.implicitHeader implicit .h1)) s

/-- SET_TX_POWER (R189). -/
def execSetTxPower (level : Byte) (s : State) : Host.Outcome State Fault Refusal :=
  runCommand (needsDriver s) (acceptAt (.setTxPower level)) s

end Sys2Proof.Machine
end

