-- ==== Sys2Proof/Machine/Status.lean ====
section
/-! DEFINITION. The meanings of PACKET_RSSI and PACKET_SNR (spec/43_status_reads.md). -/

namespace Sys2Proof.Machine

/-- PACKET_RSSI (R202). -/
def execPacketRssi (s : State) : Host.Outcome State Fault Refusal :=
  runCommand (needsDriver s) (acceptAt .packetRssi) s

/-- PACKET_SNR (R203). -/
def execPacketSnr (s : State) : Host.Outcome State Fault Refusal :=
  runCommand (needsDriver s) (acceptAt .packetSnr) s

end Sys2Proof.Machine
end

