-- ==== Sys2Proof/Machine/Transport.lean ====
section
/-! DEFINITION. The meanings of RESET_PINS, SPI.RD and SPI.WR (spec/40_transport.md). -/

namespace Sys2Proof.Machine

/-- RESET_PINS (R140): always admitted. -/
def execResetPins (s : State) : Host.Outcome State Fault Refusal :=
  runCommand none (acceptAt (.resetPins .s1)) s

/-- SPI.RD on its own (R141): one atomic transfer; CS is high after it and the captured byte goes to HCTX's T. DESIGN CHOICE
(log 7): it is made in every state, also before the first RESET_PINS, where the spec makes no transfer (R42, R39, U9); CS then
goes from undriven to high. -/
def execSpiRd (a : RegNum) (s : State) : Host.Outcome State Fault Refusal := .next (hostRead a s)

/-- SPI.WR on its own (R142): one atomic transfer; CS is high after it and the captured byte is discarded. DESIGN CHOICE
(log 7): as for SPI.RD, it is made in every state, also before the first RESET_PINS, and CS then goes from undriven to high. -/
def execSpiWr (a : RegNum) (v : Byte) (s : State) : Host.Outcome State Fault Refusal := .next (hostWrite a v s)

end Sys2Proof.Machine
end

