-- ==== Sys2Proof/Machine/Dispatch.lean ====
section
/-! DEFINITION. `exec`: one arm per row of spec/opcode_table.json. -/

namespace Sys2Proof.Machine

def exec (i : Instr) (s : State) : Host.Outcome State Fault Refusal :=
  match i with
  | .resetPins => Sys2Proof.Machine.execResetPins s
  | .spiRd a => Sys2Proof.Machine.execSpiRd a s
  | .spiWr a v => Sys2Proof.Machine.execSpiWr a v s
  | .init p => Sys2Proof.Machine.execInit p s
  | .beginPacket => Sys2Proof.Machine.execBeginPacket s
  | .write data => Sys2Proof.Machine.execWrite data s
  | .endPacket => Sys2Proof.Machine.execEndPacket s
  | .receive size => Sys2Proof.Machine.execReceive size s
  | .onReceive enable => Sys2Proof.Machine.execOnReceive enable s
  | .onTransmit enable => Sys2Proof.Machine.execOnTransmit enable s
  | .setFrequency frequency => Sys2Proof.Machine.execSetFrequency frequency s
  | .setBandwidth bandwidth => Sys2Proof.Machine.execSetBandwidth bandwidth s
  | .setSf sf => Sys2Proof.Machine.execSetSf sf s
  | .setCr denominator => Sys2Proof.Machine.execSetCr denominator s
  | .setPreamble len => Sys2Proof.Machine.execSetPreamble len s
  | .setSync sync => Sys2Proof.Machine.execSetSync sync s
  | .enableCrc enable => Sys2Proof.Machine.execEnableCrc enable s
  | .implicitHeader implicit => Sys2Proof.Machine.execImplicitHeader implicit s
  | .setTxPower level => Sys2Proof.Machine.execSetTxPower level s
  | .packetRssi => Sys2Proof.Machine.execPacketRssi s
  | .packetSnr => Sys2Proof.Machine.execPacketSnr s
  | .attach => Sys2Proof.Machine.execAttach s
  | .sendPacket src dst payload => Sys2Proof.Machine.execSendPacket src dst payload s
  | .isPacketAvailable => Sys2Proof.Machine.execIsPacketAvailable s
  | .readPacket => Sys2Proof.Machine.execReadPacket s

end Sys2Proof.Machine
end

