-- ==== Sys2Proof/Machine/Fetch.lean ====
section
/-! DEFINITION. Where the machine finds what it does next: the next move of the agents (spec/00_scope.md R19), the message
a submission presents (R27, R118), the frame laid at the SPI port (R106), and what is done with each. -/

namespace Sys2Proof.Machine

/-- The next move: the oldest one laid down, else a free choice. -/
def nextTurn (s : State) : Turn :=
  match s.env.script with
  | t :: _ => t
  | [] => Config.freeTurn s.env.turns

/-- The state once the next move is taken up. -/
def afterTurn (s : State) : State :=
  match s.env.script with
  | _ :: rest => setScript rest s
  | [] => { s with env := { s.env with turns := s.env.turns + 1 } }

/-- The answer to a message that does not decode (R118): IllegalCommand, no state change, no transfer, no Diag. -/
def refuseMessage (s : State) : State := respond .illegalCommand [] s

/-- What a table word lays down (the host's interface): a transfer frame at the SPI port, or a message for the command port
with moves enough of HCTX for the longest sequence. -/
def layWord (s : State) (nbits w : Nat) : State :=
  match tableTransfer nbits w with
  | some frame => { s with spiFrame := some frame }
  | none =>
    setScript (.submit (tableMessage s.cfg.opcodes nbits w) :: (List.replicate 300 .host ++ s.env.script))
      { s with hupc := .idle, spiFrame := none }

/-- A submission at a free command port (R27): the decoded command is executed; what does not decode is refused with
IllegalCommand (R118, R263). -/
def submitMessage (message : List Byte) (s : State) : Host.Outcome State Fault Refusal :=
  match decode s.cfg.opcodes .command message with
  | .ok i => exec i s
  | .error _ => .next (refuseMessage s)

/-- One move: a submission while HUPC is Idle, or any other move. -/
def stepTurn (t : Turn) (s : State) : Host.Outcome State Fault Refusal :=
  match t, s.hupc with
  | .submit message, .idle => submitMessage message s
  | _, _ => .next (turn t s)

/-- What a laid frame does: the transfer of its pattern (R106). -/
def stepFrame (frame : List Byte) (s : State) : Host.Outcome State Fault Refusal :=
  match decode s.cfg.opcodes .spi frame with
  | .ok i => exec i { s with spiFrame := none }
  | .error _ => .refused .notATransferFrame

/-- A configuration outside the admitted set is refused (U16). -/
def ifAdmitted (s : State) (o : Host.Outcome State Fault Refusal) : Host.Outcome State Fault Refusal :=
  if s.cfg.admitted then o else .refused .configurationNotAdmitted

end Sys2Proof.Machine
end

