-- ==== Sys2Proof/Machine/Step.lean ====
section
/-! DEFINITION. One step of the machine: the frame laid at the SPI port, if any; else one move of one agent. What each does
is in Machine/Fetch.lean. -/

namespace Sys2Proof.Machine

/-- One step of the machine. -/
def step (s : State) : Host.Outcome State Fault Refusal :=
  match s.spiFrame with
  | some frame => ifAdmitted s (stepFrame frame s)
  | none => ifAdmitted s (stepTurn (nextTurn s) (afterTurn s))

/-- The host's placement of one instruction where `step` finds its next (log 8). -/
def State.withFetchWord (s : State) (nbits w : Nat) : State := layWord s nbits w

end Sys2Proof.Machine
end

