-- ==== Sys2Proof/Safety.lean ====
section
/-! DEFINITION. What a safe run is: the invariants of spec/70_reset_and_hazards.md R319 (with those of R23, R117, R247
and R317 they rest on), and the words the statements use. -/

namespace Sys2Proof.Machine

/-! ## Where the two contexts stand -/

/-- HCTX is past SEND_PACKET's `acquire LOCK` and before its release: steps s4 to s13 (R319). -/
def hostHolds : HUpc → Bool
  | .sendPacket _ _ _ .s4 => true
  | .sendPacket _ _ _ .s5 => true
  | .sendPacket _ _ _ .s6 => true
  | .sendPacket _ _ _ .s7 => true
  | .sendPacket _ _ _ (.s8 _) => true
  | .sendPacket _ _ _ (.s9 _) => true
  | .sendPacket _ _ _ .s10 => true
  | .sendPacket _ _ _ .s11 => true
  | .sendPacket _ _ _ .s12 => true
  | .sendPacket _ _ _ .s13 => true
  | _ => false

/-- ICTX is past an `acquire LOCK` and before its release: r2 to r9, r11, t2 to t6, t8 (R319). -/
def irqHolds : IUpc → Bool
  | .isrRx .r2 => true
  | .isrRx .r3 => true
  | .isrRx .r4 => true
  | .isrRx .r5 => true
  | .isrRx .r6 => true
  | .isrRx .r7 => true
  | .isrRx .r8 => true
  | .isrRx .r9 => true
  | .isrRx (.r11 _) => true
  | .isrTx .t2 => true
  | .isrTx .t3 => true
  | .isrTx .t4 => true
  | .isrTx .t5 => true
  | .isrTx .t6 => true
  | .isrTx (.t8 _) => true
  | _ => false

/-- ICTX is in the receive callback with a well-formed raw payload: c2 to c5. -/
def parsing : IUpc → Bool
  | .isrRx .c2 => true
  | .isrRx .c3 => true
  | .isrRx .c4 => true
  | .isrRx (.c5 _) => true
  | _ => false

/-- A command other than RESET_PINS and INIT is in progress: it was admitted, so DRV was Ready (R149). -/
def driverCommand : HUpc → Bool
  | .idle => false
  | .resetPins _ => false
  | .init _ _ => false
  | _ => true

/-- INIT is in progress. -/
def initRunning : HUpc → Bool
  | .init _ _ => true
  | _ => false

/-- INIT is past i12, where it has set HDR. -/
def initHeaderSet : HUpc → Bool
  | .init _ .i13 => true
  | .init _ .i14 => true
  | .init _ .i15 => true
  | .init _ .i16 => true
  | .init _ .i17 => true
  | .init _ .i18 => true
  | .init _ .i19 => true
  | .init _ .i20 => true
  | .init _ .i21 => true
  | .init _ .i22 => true
  | .init _ .i23 => true
  | .init _ .i24 => true
  | .init _ .i25 => true
  | _ => false

/-- INIT is past i2, where it has put the target to sleep, and has not done i25. -/
def initAsleep : HUpc → Bool
  | .init _ .i3 => true
  | .init _ .i4 => true
  | .init _ .i5 => true
  | .init _ .i6 => true
  | .init _ .i7 => true
  | .init _ .i8 => true
  | .init _ .i9 => true
  | .init _ .i10 => true
  | .init _ .i11 => true
  | .init _ .i12 => true
  | u => initHeaderSet u

/-- HCTX is in the loop of a WRITE. -/
def writing : HUpc → Bool
  | .write _ .w2 => true
  | .sendPacket _ _ _ (.s8 .w2) => true
  | .sendPacket _ _ _ (.s9 .w2) => true
  | _ => false

/-- HCTX is at the write-back of a WRITE, or in its loop. -/
def writeOpened : HUpc → Bool
  | .write _ .w3 => true
  | .sendPacket _ _ _ (.s8 .w3) => true
  | .sendPacket _ _ _ (.s9 .w3) => true
  | u => writing u

/-! ## The invariant -/

/-- The invariants of R319, and what they rest on. -/
structure Inv (s : State) : Prop where
  /-- LOCK = HeldByHost exactly in SEND_PACKET s4 .. s13. -/
  hostLock : s.lock = .heldByHost ↔ hostHolds s.hupc = true
  /-- LOCK = HeldByIrq exactly between an ICTX acquire and its release. -/
  irqLock : s.lock = .heldByIrq ↔ irqHolds s.iupc = true
  /-- DRV = Ready implies PINS_READY = 1. -/
  pins : s.drv = .ready → s.pinsReady = true
  /-- INIT runs only with PINS_READY = 1 (R39). -/
  initPins : initRunning s.hupc = true → s.pinsReady = true
  /-- Every other command but RESET_PINS runs only with DRV = Ready (R38). -/
  driver : driverCommand s.hupc = true → s.drv = .ready
  /-- After a completed INIT, HDR is not Unknown (R247). -/
  header : s.drv = .ready → s.hdr ≠ .unknown
  /-- INIT has set HDR from i13 on. -/
  initHeader : initHeaderSet s.hupc = true → s.hdr ≠ .unknown
  /-- SLOT.valid = 1 implies 1 <= SLOT.count <= 251, and `count` bytes are held. -/
  slotCount : s.slot.valid = true →
    1 ≤ s.slot.count.toNat ∧ s.slot.count.toNat ≤ 251 ∧ s.slot.payload.length = s.slot.count.toNat
  /-- The stored RSSI is in -164 .. +98 (R10). -/
  slotRssi : s.slot.valid = true → -164 ≤ s.slot.rssi ∧ s.slot.rssi ≤ 98
  /-- The callback parses only a raw payload of more than four bytes (R250). -/
  parsed : parsing s.iupc = true → 4 < s.ictx.n.toNat
  /-- The value c5 stores is in range. -/
  rssiRange : ∀ r, s.iupc = .isrRx (.c5 r) → -164 ≤ r ∧ r ≤ 98
  /-- PCNT <= POLL_MAX. -/
  poll : s.pcnt.toNat ≤ s.cfg.pollMax.toNat
  /-- A tick is awaited only below POLL_MAX. -/
  await : ∀ src dst n, s.hupc = .sendPacket src dst n .s15Await → s.pcnt.toNat < s.cfg.pollMax.toNat
  /-- CS is not low between steps (CS = 1 once it is driven). -/
  csIdle : s.cs ≠ .low
  /-- MODE is never RxSingle (R317). -/
  modeReachable : s.mode ≠ .rxSingle
  /-- MODE is Sleep only inside INIT (R317). -/
  sleeping : s.mode = .sleep → initAsleep s.hupc = true
  /-- The buffers have their lengths (R21, R24). -/
  buffers : s.txb.length = 255 ∧ s.rxbuf.length = 255 ∧ s.hctx.hb.length = 4
  /-- SEND_PACKET runs only with n <= 251 (R119). -/
  frame : ∀ src dst n k, s.hupc = .sendPacket src dst n k → n ≤ 251
  /-- In WRITE's loop CNT < K. -/
  writeLoop : writing s.hupc = true → s.hctx.cnt.toNat < s.hctx.k.toNat
  /-- CUR + K <= 255 (R117 d). -/
  writeCapacity : writeOpened s.hupc = true → s.hctx.cur.toNat + s.hctx.k.toNat ≤ 255
  /-- In ISR_RX's loop ICNT < N. -/
  readLoop : s.iupc = .isrRx .r8 → s.ictx.icnt.toNat < s.ictx.n.toNat
  /-- The target space is in canonical form. -/
  memory : s.env.tmem.wf = true

/-! ## Words of the statements -/

/-- HCTX can take a command and step it: HUPC = Idle and ICTX does not keep it from stepping (R27, R73). -/
abbrev PortFree (s : State) : Prop := s.hupc = .idle ∧ hostBlocked s = false

/-- A driver command is admitted and can be stepped (R149). -/
abbrev Ready (s : State) : Prop := PortFree s ∧ s.drv = .ready

/-- The configuration is one the spec admits (U16), and the target space is in canonical form. -/
abbrev Regular (s : State) : Prop := s.cfg.admitted = true ∧ s.env.tmem.wf = true

/-- The coming `k` moves are HCTX's; `rest` are the moves after them (R73: the order of the moves is free). -/
abbrev Granted (k : Nat) (rest : List Turn) (s : State) : Prop :=
  s.env.script = List.replicate k Turn.host ++ rest

/-- The reference target answers: RST is high after a target reset (R82, R83, R86). -/
abbrev Live (s : State) : Prop := targetLive s.rst s.env = true

/-- One output as the spec writes it in a trace (R15): a read with the byte it returned, a write with the byte it sent (the
byte a write captures is discarded, R142), an event, a response or a pin. -/
inductive Emitted where
  | rd (c : Ctx) (reg : RegNum) (r : Byte)
  | wr (c : Ctx) (reg : RegNum) (v : Byte)
  | diag (d : Diag)
  | response (bytes : List Byte)
  | pin (out : Output)
  deriving DecidableEq, Repr

/-- The trace entry of an output. -/
def emitted : Output → Emitted
  | .transfer ⟨c, .rd, reg, _, r⟩ => .rd c reg r
  | .transfer ⟨c, .wr, reg, v, _⟩ => .wr c reg v
  | .diag d => .diag d
  | .response bytes => .response bytes
  | .csPin p => .pin (.csPin p)
  | .rstPin p => .pin (.rstPin p)

/-- `H RD reg -> r`. -/
abbrev hRd (reg : RegNum) (r : Byte) : Emitted := .rd .hctx reg r
/-- `H WR reg, v`. -/
abbrev hWr (reg : RegNum) (v : Byte) : Emitted := .wr .hctx reg v
/-- `I RD reg -> r`. -/
abbrev iRd (reg : RegNum) (r : Byte) : Emitted := .rd .ictx reg r
/-- `I WR reg, v`. -/
abbrev iWr (reg : RegNum) (v : Byte) : Emitted := .wr .ictx reg v

/-- Between `s` and `t` the block put out exactly the trace `l`, oldest first, and the earlier outputs stand. -/
def PutOut (s t : State) (l : List Emitted) : Prop :=
  ∃ new, t.out = new ++ s.out ∧ new.map emitted = l.reverse

/-- `t` is `u` in every register of the block but CS; the environment and the outputs are not compared. What the spec leaves
not defined (working registers between sequences, buffer bytes beyond N or n, slot fields while valid = 0) is compared as the
model keeps it (logs 23, 24, 25). -/
def BlockIs (t u : State) : Prop := { t with cs := u.cs, env := u.env, out := u.out } = u

/-- Every byte of the target outside `addresses` reads as before. -/
def TargetFrame (s t : State) (addresses : List Nat) : Prop :=
  ∀ a, a ∉ addresses → t.env.tmem.read a = s.env.tmem.read a

/-- What a run of transfers leaves of the rest: CS is high again, the same target is attached, no free move was taken, the
coming moves are `rest`, and every byte of the target outside `addresses` reads as before. -/
def BusFrame (s t : State) (rest : List Turn) (addresses : List Nat) : Prop :=
  t.cs = .high ∧ t.env.kind = s.env.kind ∧ t.env.turns = s.env.turns ∧ t.env.script = rest ∧
    TargetFrame s t addresses

/-- The reference target holds `v` in register `a` afterwards, if it is the target that answered. -/
def Stored (s t : State) (a : RegNum) (v : Byte) : Prop := Live s → targetReg t.env a = v

/-- A command that needs a constructed driver (R149): every one but RESET_PINS and INIT. -/
def needsConstruction : Instr → Bool
  | .resetPins => false
  | .init _ => false
  | i => i.port == .command

/-- `s` once a command is answered with a status alone: nothing else of it changes (R14). -/
abbrev statusAlone (code : Byte) (s : State) : State := { s with out := .response [code] :: s.out }

/-- `s` with the coming moves `rest`. -/
abbrev withMoves (rest : List Turn) (s : State) : State := { s with env := { s.env with script := rest } }

/-- How many transfers a record of outputs holds. -/
def transferCount : List Output → Nat
  | [] => 0
  | .transfer _ :: rest => transferCount rest + 1
  | _ :: rest => transferCount rest

/-- One of the nine setters (R180). -/
def isSetter : Instr → Bool
  | .setFrequency _ => true
  | .setBandwidth _ => true
  | .setSf _ => true
  | .setCr _ => true
  | .setPreamble _ => true
  | .setSync _ => true
  | .enableCrc _ => true
  | .implicitHeader _ => true
  | .setTxPower _ => true
  | _ => false

/-- Two setters of the same field: the same command with any operands. -/
def sameSetter : Instr → Instr → Bool
  | .setFrequency _, .setFrequency _ => true
  | .setBandwidth _, .setBandwidth _ => true
  | .setSf _, .setSf _ => true
  | .setCr _, .setCr _ => true
  | .setPreamble _, .setPreamble _ => true
  | .setSync _, .setSync _ => true
  | .enableCrc _, .enableCrc _ => true
  | .implicitHeader _, .implicitHeader _ => true
  | .setTxPower _, .setTxPower _ => true
  | _, _ => false

/-- Run a list of moves, one after the other. -/
def runTurns : List Turn → State → State
  | [], s => s
  | t :: rest, s => runTurns rest (turn t s)

/-! ### Which messages are illegal (R118), read from the table of R101 -/

/-- The places of the boolean operand bytes of each opcode (R101). -/
def booleanPlaces (m : OpcodeMap) (op : Byte) : List Nat :=
  if op = m.init then [14, 16]
  else if op ∈ [m.onReceive, m.onTransmit, m.enableCrc, m.implicitHeader] then [1] else []

/-- Some boolean operand byte is neither 0x00 nor 0x01. -/
def badBoolean (m : OpcodeMap) (bytes : List Byte) : Bool :=
  (booleanPlaces m (bytes.getD 0 0)).any fun k => bytes.getD k 0 != 0 && bytes.getD k 0 != 1

/-- R118: a message that is empty, or of an unknown opcode, or not as long as R101 says, or with a bad boolean. -/
def illegalMessage (m : OpcodeMap) (bytes : List Byte) : Bool :=
  bytes.isEmpty || !m.toList.contains (bytes.getD 0 0) || bytes.length != messageLength m bytes || badBoolean m bytes

/-! ### Who writes what (R48, R160) -/

/-- The new MODE and the byte written at the HCTX steps of R160. -/
def hostModeStep (c : Config) : HUpc → Option (Mode × Byte)
  | .init _ .i2 => some (.sleep, modeByte c c.opmodeSleep)
  | .init _ .i25 => some (.standby, modeByte c c.opmodeStdby)
  | .beginPacket .b1 => some (.standby, modeByte c c.opmodeStdby)
  | .sendPacket _ _ _ .s4 => some (.standby, modeByte c c.opmodeStdby)
  | .endPacket .e3 => some (.tx, modeByte c c.opmodeTx)
  | .sendPacket _ _ _ .s12 => some (.tx, modeByte c c.opmodeTx)
  | .receive _ .v6 => some (.rxContinuous, modeByte c c.opmodeRxCont)
  | _ => none

/-- The new MODE and the byte written at the ICTX steps of R160: the re-arm after either callback. -/
def irqModeStep (c : Config) : IUpc → Option (Mode × Byte)
  | .isrRx (.c6 .v6) => some (.rxContinuous, modeByte c c.opmodeRxCont)
  | .isrTx (.d2 .v6) => some (.rxContinuous, modeByte c c.opmodeRxCont)
  | _ => none

end Sys2Proof.Machine
end

