-- ==== Sys2Proof/Certificates/Slice0/Obligations.lean ====
section
/-! DEFINITION. The statements for the provers. Each says in its docstring which rule of spec/ it follows, or that it is the
model's own choice. Where a statement says that a register is as before, that holds of what the spec leaves not defined by the
model's choice alone: working registers between sequences (log 23), buffer bytes beyond N or n (log 24), slot fields while
valid = 0 (log 25). -/

open Sys2Proof Sys2Proof.Machine

/-! ## Encoding -/

/-- R100 to R107: with pairwise distinct opcodes, what a well-formed instruction is written as decodes, at its port, to that
instruction. -/
def Obligations.DecodeOfEncode : Prop :=
  ∀ (m : OpcodeMap) (i : Instr), m.distinct = true → i.wellFormed = true → decode m i.port (encode m i) = .ok i

/-- R100 to R107: a message or frame that decodes is the one and only writing of a well-formed instruction of that port. -/
def Obligations.EncodeOfDecode : Prop :=
  ∀ (m : OpcodeMap) (port : Port) (bytes : List Byte) (i : Instr), decode m port bytes = .ok i →
    i.wellFormed = true ∧ i.port = port ∧ encode m i = bytes

/-- Words written out from R101 and R106 decode, with the default opcodes, to the instructions they stand for; the default
opcodes are those of R101 and the default status codes those of R104. -/
def Obligations.KnownWordsDecode : Prop :=
  decode defaultOpcodes .command [0x01] = .ok .resetPins ∧
  decode defaultOpcodes .command [0x10, 0x36, 0x89, 0xCA, 0xC0, 0x05, 0x00, 0x01, 0xE8, 0x48, 0x07, 0x05, 0x00, 0x08, 0x00, 0x12,
      0x01] =
    .ok (.init { frequency := 915000000, txPowerLevel := 5, signalBandwidth := 125000, spreadingFactor := 7,
                 codingRate := 5, preambleLength := 8, implicitHeader := false, syncWord := 0x12,
                 enableCrc := true }) ∧
  decode defaultOpcodes .command [0x12, 0x02, 0x68, 0x69] = .ok (.write [0x68, 0x69]) ∧
  decode defaultOpcodes .command [0x20, 0x33, 0xBC, 0xA1, 0x00] = .ok (.setFrequency 868000000) ∧
  decode defaultOpcodes .command [0x24, 0x12, 0x34] = .ok (.setPreamble 0x1234) ∧
  decode defaultOpcodes .command [0x30] = .ok .packetRssi ∧
  decode defaultOpcodes .command [0x41, 0x01, 0xFF, 0x05, 0x68, 0x65, 0x6C, 0x6C, 0x6F] =
    .ok (.sendPacket 0x01 0xFF [0x68, 0x65, 0x6C, 0x6C, 0x6F]) ∧
  decode defaultOpcodes .spi [0x42, 0x00] = .ok (.spiRd 0x42) ∧
  decode defaultOpcodes .spi [0x81, 0x81] = .ok (.spiWr 0x01 0x81) ∧
  defaultOpcodes.toList =
    [0x01, 0x10, 0x11, 0x12, 0x13, 0x14, 0x15, 0x16, 0x20, 0x21, 0x22, 0x23, 0x24, 0x25, 0x26, 0x27, 0x28, 0x30, 0x31,
     0x40, 0x41, 0x42, 0x43] ∧
  defaultStatuses.toList = [0x00, 0x01, 0x02, 0x03, 0x04, 0x05, 0x06, 0x07, 0x08]

/-- R118, whole: a message is one of the 23 commands or it is illegal, and an illegal message is answered with
IllegalCommand alone: no state change, no transfer, no Diag. -/
def Obligations.IllegalMessagesRefused : Prop :=
  ∀ bytes : List Byte,
    (∀ m : OpcodeMap, m.distinct = true →
      (illegalMessage m bytes = true ↔ ∀ i, decode m .command bytes ≠ .ok i)) ∧
    ∀ (s : State) (rest : List Turn), illegalMessage s.cfg.opcodes bytes = true →
      s.cfg.admitted = true → s.spiFrame = none → s.hupc = .idle → s.env.script = .submit bytes :: rest →
      step s = .next (statusAlone s.cfg.statuses.illegalCommand (withMoves rest s))

/-! ## The step -/

/-- R27, and the model's laid frame (log 8): where the bytes the step finds decode to `i`, the step is `exec` of `i`, with the
frame or the move taken up. -/
def Obligations.StepRunsDecodedInstruction : Prop :=
  ∀ (s : State) (i : Instr), s.cfg.admitted = true →
    (∀ frame, s.spiFrame = some frame → decode s.cfg.opcodes .spi frame = .ok i → step s = exec i { s with spiFrame := none }) ∧
    (∀ message rest, s.spiFrame = none → s.hupc = .idle → s.env.script = .submit message :: rest →
      decode s.cfg.opcodes .command message = .ok i → step s = exec i (withMoves rest s))

/-- R19: every other step is one move of one agent, the next one laid down or, with none laid down, a free one (log 6). -/
def Obligations.StepTakesOneMove : Prop :=
  ∀ s : State, s.cfg.admitted = true → s.spiFrame = none →
    (∀ m rest, s.env.script = m :: rest → (s.hupc ≠ .idle ∨ ∀ message, m ≠ .submit message) →
      step s = .next (turn m (withMoves rest s))) ∧
    (s.env.script = [] → (s.hupc ≠ .idle ∨ ∀ message, Config.freeTurn s.env.turns ≠ .submit message) →
      step s =
        .next (turn (Config.freeTurn s.env.turns) { s with env := { s.env with turns := s.env.turns + 1 } }))

/-- The host's placement (log 8): the step after it runs the instruction the decoder reads from the table word, with the
configuration's opcodes; with the default opcodes that is `decodeTableWord`. -/
def Obligations.TableWordRuns : Prop :=
  ∀ (s : State) (nbits w : Nat) (i : Instr), s.cfg.admitted = true →
    (decodeWord s.cfg.opcodes nbits w = some i ∨ (s.cfg.opcodes = defaultOpcodes ∧ decodeTableWord nbits w = some i)) →
    step (s.withFetchWord nbits w) =
      exec i (if i.port = .spi then { s with spiFrame := none }
        else withMoves (List.replicate 300 .host ++ s.env.script) { s with hupc := .idle, spiFrame := none })

/-- The model's choice (log 10, DESIGN CHOICE and DEDUCED): the step refuses a configuration outside the admitted set, which is
U16's with the checks that log 10 adds (nine bins, a crystal above 0 Hz, a hold of at least 10 ms, distinct opcodes and status
codes). The model's choice (log 8): so it does a laid frame that is neither pattern of R106. -/
def Obligations.StepRefusals : Prop :=
  ∀ s : State,
    (s.cfg.admitted = false → step s = .refused .configurationNotAdmitted) ∧
    (∀ frame, s.cfg.admitted = true → s.spiFrame = some frame → (∀ i, decode s.cfg.opcodes .spi frame ≠ .ok i) →
      step s = .refused .notATransferFrame)

/-! ## Admission -/

/-- R149: without a constructed driver every command but RESET_PINS and INIT is answered NotConstructed, and INIT without
ready pins PinsNotReady; nothing else changes, no transfer is made, no Diag is put out. -/
def Obligations.RefusedBeforeConstruction : Prop :=
  ∀ s : State, s.hupc = .idle →
    (∀ i, needsConstruction i = true → s.drv = .absent → exec i s = .next (statusAlone s.cfg.statuses.notConstructed s)) ∧
    (∀ p, s.pinsReady = false → exec (.init p) s = .next (statusAlone s.cfg.statuses.pinsNotReady s))

/-- R263: the refusals of one message, first that applies; a refused command performs no step of its sequence. -/
def Obligations.RefusalOrder : Prop :=
  ∀ (s : State) (bytes : List Byte) (rest : List Turn), s.cfg.admitted = true → s.spiFrame = none →
    s.hupc = .idle → s.env.script = .submit bytes :: rest →
    (illegalMessage s.cfg.opcodes bytes = true →
      step s = .next (statusAlone s.cfg.statuses.illegalCommand (withMoves rest s))) ∧
    ∀ i, decode s.cfg.opcodes .command bytes = .ok i →
      (∀ p, i = .init p → s.pinsReady = false →
        step s = .next (statusAlone s.cfg.statuses.pinsNotReady (withMoves rest s))) ∧
      (needsConstruction i = true → s.drv = .absent →
        step s = .next (statusAlone s.cfg.statuses.notConstructed (withMoves rest s))) ∧
      (∀ src dst payload, i = .sendPacket src dst payload → s.drv = .ready → 251 < payload.length →
        step s = .next (statusAlone s.cfg.statuses.payloadTooLong (withMoves rest s)))

/-- The model's choice where R27 gives no effect (log 4): a submission while a command is in progress has none, and `exec`
of a host command at a busy port faults. -/
def Obligations.BusyPort : Prop :=
  ∀ s : State, s.hupc ≠ .idle →
    (∀ i : Instr, i.port = .command → exec i s = .fault .commandPortBusy) ∧
    (∀ message, turn (.submit message) s = s)

/-! ## Transport -/

/-- R140: RESET_PINS is admitted in every state of DRV and PINS_READY; it drives CS high and RST low then high, sets
PINS_READY, and changes nothing else of the block. -/
def Obligations.ResetPinsPulsesReset : Prop :=
  ∀ (rest : List Turn) (s : State), PortFree s → Granted 6 rest s →
    exec .resetPins s =
      .next { s with
        cs := .high, rst := .high, pinsReady := true
        env := { resetTarget s.cfg.regs s.env with script := rest }
        out := [.response [s.cfg.statuses.ok], .rstPin .high, .rstPin .low, .csPin .high] ++ s.out }

/-- R81, whole: after RESET_PINS the reference target holds the values of the table, and 0x00 everywhere else. -/
def Obligations.TargetResetValues : Prop :=
  ∀ (rest : List Turn) (s : State), PortFree s → s.cfg.admitted = true → s.env.kind = .reference → Granted 6 rest s →
    ∃ t, exec .resetPins s = .next t ∧
      targetReg t.env s.cfg.regs.opMode = 0x09 ∧
      targetReg t.env s.cfg.regs.frfMsb = 0x6C ∧
      targetReg t.env s.cfg.regs.frfMid = 0x80 ∧
      targetReg t.env s.cfg.regs.frfLsb = 0x00 ∧
      targetReg t.env s.cfg.regs.paConfig = 0x4F ∧
      targetReg t.env s.cfg.regs.lna = 0x20 ∧
      targetReg t.env s.cfg.regs.fifoTxBaseAddr = 0x80 ∧
      targetReg t.env s.cfg.regs.modemConfig1 = 0x72 ∧
      targetReg t.env s.cfg.regs.modemConfig2 = 0x70 ∧
      targetReg t.env s.cfg.regs.preambleLsb = 0x08 ∧
      targetReg t.env s.cfg.regs.payloadLength = 0x01 ∧
      targetReg t.env s.cfg.regs.syncWord = 0x12 ∧
      targetReg t.env s.cfg.regs.version = 0x12 ∧
      ∀ a, a ∉ [s.cfg.regs.opMode, s.cfg.regs.frfMsb, s.cfg.regs.frfMid, s.cfg.regs.frfLsb, s.cfg.regs.paConfig,
          s.cfg.regs.lna, s.cfg.regs.fifoTxBaseAddr, s.cfg.regs.modemConfig1, s.cfg.regs.modemConfig2,
          s.cfg.regs.preambleLsb, s.cfg.regs.payloadLength, s.cfg.regs.syncWord, s.cfg.regs.version].map regAddress →
        t.env.tmem.read a = 0x00

/-- R141 and R82: SPI.RD makes one read transfer; the reference target answers TFIFO[p] and advances the pointer, or answers
TR[a] without a side effect; any other target answers a draw (R74, R86). That a transfer stands alone, in HCTX, with T
taking its byte, is the model's choice, and so is that it is made before the first RESET_PINS, CS going from undriven to high
(log 7). -/
def Obligations.SpiReadTransfer : Prop :=
  ∀ (a : RegNum) (s : State), s.env.tmem.wf = true →
    ∃ t, exec (.spiRd a) s = .next t ∧
      PutOut s t [hRd a t.hctx.t] ∧
      BlockIs t { s with hctx := { s.hctx with t := t.hctx.t } } ∧ t.cs = .high ∧
      (Live s → a = s.cfg.regs.fifo →
        t.hctx.t = s.env.tmem.read (fifoAddress (targetReg s.env s.cfg.regs.fifoAddrPtr)) ∧
        targetReg t.env s.cfg.regs.fifoAddrPtr = targetReg s.env s.cfg.regs.fifoAddrPtr + 1 ∧
        TargetFrame s t [regAddress s.cfg.regs.fifoAddrPtr]) ∧
      (Live s → a ≠ s.cfg.regs.fifo → t.hctx.t = targetReg s.env a ∧ TargetFrame s t []) ∧
      (¬ Live s → t.hctx.t = drawnByte s.env ∧ TargetFrame s t [])

/-- R142 and R83: SPI.WR makes one write transfer, discards the prior value it captures, and writes no register of the
block but CS; the reference target stores as R83 says for each kind of register. That a transfer stands alone, in HCTX, also
before the first RESET_PINS (CS then goes from undriven to high), is the model's choice (log 7). -/
def Obligations.SpiWriteTransfer : Prop :=
  ∀ (a : RegNum) (v : Byte) (s : State), s.env.tmem.wf = true →
    ∃ t prior, exec (.spiWr a v) s = .next t ∧
      t.out = .transfer { ctx := .hctx, dir := .wr, reg := a, sent := v, captured := prior } :: s.out ∧
      BlockIs t s ∧ t.cs = .high ∧
      (Live s →
        if a = s.cfg.regs.fifo then
          prior = s.env.tmem.read (fifoAddress (targetReg s.env s.cfg.regs.fifoAddrPtr)) ∧
          t.env.tmem.read (fifoAddress (targetReg s.env s.cfg.regs.fifoAddrPtr)) = v ∧
          targetReg t.env s.cfg.regs.fifoAddrPtr = targetReg s.env s.cfg.regs.fifoAddrPtr + 1 ∧
          TargetFrame s t [fifoAddress (targetReg s.env s.cfg.regs.fifoAddrPtr), regAddress s.cfg.regs.fifoAddrPtr]
        else if a = s.cfg.regs.irqFlags then
          prior = targetReg s.env a ∧ targetReg t.env a = targetReg s.env a &&& ~~~v ∧
          TargetFrame s t [regAddress a]
        else if a ∈ [s.cfg.regs.version, s.cfg.regs.fifoRxCurrentAddr, s.cfg.regs.rxNbBytes,
            s.cfg.regs.pktSnrValue, s.cfg.regs.pktRssiValue] then
          prior = targetReg s.env a ∧ TargetFrame s t []
        else
          prior = targetReg s.env a ∧ targetReg t.env a = v ∧ TargetFrame s t [regAddress a]) ∧
      (¬ Live s → prior = drawnByte s.env ∧ TargetFrame s t [])

/-- R106, R107, R8: the 16 bits a transfer puts on the outgoing line, the first sent on the left: the direction bit, the seven
bits of the register number and the eight of the value, each most significant first; and the two bytes they are. That the
transfer stands alone, in every state (before the first RESET_PINS too), is the model's choice (log 7). -/
def Obligations.TransferBitsOnLine : Prop :=
  ∀ (a : RegNum) (v : Byte) (s : State),
    (∃ t r, exec (.spiRd a) s = .next t ∧ t.out = .transfer r :: s.out ∧
      transferFrame r = encode s.cfg.opcodes (.spiRd a) ∧
      transferLine r =
        false :: (([6, 5, 4, 3, 2, 1, 0].map a.getLsbD) ++ List.replicate 8 false)) ∧
    (∃ t r, exec (.spiWr a v) s = .next t ∧ t.out = .transfer r :: s.out ∧
      transferFrame r = encode s.cfg.opcodes (.spiWr a v) ∧
      transferLine r =
        true :: (([6, 5, 4, 3, 2, 1, 0].map a.getLsbD) ++ [7, 6, 5, 4, 3, 2, 1, 0].map v.getLsbD))

/-- R82 and R83: a register of plain storage of the reference target reads back what was written last. The byte is seen in
T; that T takes the byte of a transfer that stands alone is the model's choice (log 7). -/
def Obligations.WriteThenRead : Prop :=
  ∀ (a : RegNum) (v : Byte) (s : State), s.env.tmem.wf = true → Live s →
    a ∉ [s.cfg.regs.fifo, s.cfg.regs.irqFlags, s.cfg.regs.version, s.cfg.regs.fifoRxCurrentAddr,
      s.cfg.regs.rxNbBytes, s.cfg.regs.pktSnrValue, s.cfg.regs.pktRssiValue] →
    ∃ t u, exec (.spiWr a v) s = .next t ∧ exec (.spiRd a) t = .next u ∧ u.hctx.t = v

/-! ## INIT -/

/-- R152 with a matching version: 25 transfers in the order of i1 to i25, each merging write keeping the bits it does not own
of the byte just read; then the block is as R152 says and its other registers are as before. And whatever the other
context does in between, each of i1 to i25 makes exactly one transfer, and i13 follows i12: there is no no-op branch (log 22). -/
def Obligations.InitConfiguresTarget : Prop :=
  (∀ (p : RadioParameters) (rest : List Turn) (s : State), PortFree s → Regular s → s.pinsReady = true →
     captured s.cfg.regs.version s = s.cfg.expectedVersion → Granted 26 rest s →
     ∃ (t : State) (c1 lna c2 d1 c3 d2 : Byte), exec (.init p) s = .next t ∧
       PutOut s t
         [hRd s.cfg.regs.version s.cfg.expectedVersion,
          hWr s.cfg.regs.opMode (s.cfg.opmodeLongRange ||| s.cfg.opmodeSleep),
          hWr s.cfg.regs.frfMsb ((frfWord s.cfg p.frequency).extractLsb' 16 8),
          hWr s.cfg.regs.frfMid ((frfWord s.cfg p.frequency).extractLsb' 8 8),
          hWr s.cfg.regs.frfLsb ((frfWord s.cfg p.frequency).extractLsb' 0 8),
          hRd s.cfg.regs.modemConfig1 c1,
          hWr s.cfg.regs.modemConfig1 (mergeField c1 s.cfg.bwField.mask
            (fieldBits s.cfg.bwField ((bwCode s.cfg p.signalBandwidth).zeroExtend 8))),
          hRd s.cfg.regs.lna lna,
          hWr s.cfg.regs.lna (mergeField lna s.cfg.lnaBoostBits s.cfg.lnaBoostBits),
          hWr s.cfg.regs.modemConfig3 s.cfg.agcAutoValue,
          hWr s.cfg.regs.paConfig (powerByte s.cfg p.txPowerLevel),
          hRd s.cfg.regs.modemConfig1 c2,
          hWr s.cfg.regs.modemConfig1 (mergeField c2 s.cfg.implicitMask
            (if p.implicitHeader then s.cfg.implicitMask else 0x00)),
          hRd s.cfg.regs.modemConfig2 d1,
          hWr s.cfg.regs.modemConfig2 (mergeField d1 s.cfg.sfField.mask
            (fieldBits s.cfg.sfField (sfCode p.spreadingFactor))),
          hRd s.cfg.regs.modemConfig1 c3,
          hWr s.cfg.regs.modemConfig1 (mergeField c3 s.cfg.crField.mask
            (fieldBits s.cfg.crField (crCode p.codingRate))),
          hWr s.cfg.regs.preambleMsb (p.preambleLength.extractLsb' 8 8),
          hWr s.cfg.regs.preambleLsb (p.preambleLength.extractLsb' 0 8),
          hWr s.cfg.regs.syncWord p.syncWord,
          hRd s.cfg.regs.modemConfig2 d2,
          hWr s.cfg.regs.modemConfig2 (mergeField d2 s.cfg.crcMask (if p.enableCrc then s.cfg.crcMask else 0x00)),
          hWr s.cfg.regs.fifoTxBaseAddr s.cfg.fifoTxBaseVal,
          hWr s.cfg.regs.fifoRxBaseAddr s.cfg.fifoRxBaseVal,
          hWr s.cfg.regs.opMode (s.cfg.opmodeLongRange ||| s.cfg.opmodeStdby),
          .response [s.cfg.statuses.ok]] ∧
       BlockIs t { s with
         armed := .none, pendRx := false, pendTx := false
         hdr := if p.implicitHeader then .implicit else .explicit
         drv := .ready, mode := .standby, freq := p.frequency
         hctx := { s.hctx with
           t := d2, m := mergeField d2 s.cfg.crcMask (if p.enableCrc then s.cfg.crcMask else 0x00)
           frf := frfWord s.cfg p.frequency, code := bwCode s.cfg p.signalBandwidth } } ∧
       BusFrame s t rest ([s.cfg.regs.opMode, s.cfg.regs.frfMsb, s.cfg.regs.frfMid, s.cfg.regs.frfLsb,
         s.cfg.regs.modemConfig1, s.cfg.regs.lna, s.cfg.regs.modemConfig3, s.cfg.regs.paConfig,
         s.cfg.regs.modemConfig2, s.cfg.regs.preambleMsb, s.cfg.regs.preambleLsb, s.cfg.regs.syncWord,
         s.cfg.regs.fifoTxBaseAddr, s.cfg.regs.fifoRxBaseAddr].map regAddress)) ∧
  ∀ (p : RadioParameters) (k : InitStep) (s : State), s.hupc = .init p k → hostBlocked s = false → k ≠ .i0 →
    transferCount (turn .host s).out = transferCount s.out + 1 ∧ (k = .i12 → (turn .host s).hupc = .init p .i13)

/-- R153, its last sentence: under the reference target the fields INIT wrote stand in the final register contents. -/
def Obligations.InitFieldsReadBack : Prop :=
  ∀ (p : RadioParameters) (rest : List Turn) (s : State), PortFree s → Regular s → Live s → s.pinsReady = true →
    captured s.cfg.regs.version s = s.cfg.expectedVersion → Granted 26 rest s →
    ∃ t, exec (.init p) s = .next t ∧
      targetReg t.env s.cfg.regs.modemConfig1 &&& s.cfg.bwField.mask =
        fieldBits s.cfg.bwField ((bwCode s.cfg p.signalBandwidth).zeroExtend 8) ∧
      targetReg t.env s.cfg.regs.modemConfig1 &&& s.cfg.crField.mask =
        fieldBits s.cfg.crField (crCode p.codingRate) ∧
      targetReg t.env s.cfg.regs.modemConfig1 &&& s.cfg.implicitMask =
        (if p.implicitHeader then s.cfg.implicitMask else 0x00) ∧
      targetReg t.env s.cfg.regs.modemConfig2 &&& s.cfg.sfField.mask =
        fieldBits s.cfg.sfField (sfCode p.spreadingFactor) ∧
      targetReg t.env s.cfg.regs.modemConfig2 &&& s.cfg.crcMask =
        (if p.enableCrc then s.cfg.crcMask else 0x00) ∧
      targetReg t.env s.cfg.regs.frfMsb ++ targetReg t.env s.cfg.regs.frfMid ++
        targetReg t.env s.cfg.regs.frfLsb = frfWord s.cfg p.frequency ∧
      targetReg t.env s.cfg.regs.paConfig = powerByte s.cfg p.txPowerLevel ∧
      targetReg t.env s.cfg.regs.preambleMsb ++ targetReg t.env s.cfg.regs.preambleLsb = p.preambleLength ∧
      targetReg t.env s.cfg.regs.syncWord = p.syncWord ∧
      targetReg t.env s.cfg.regs.opMode = s.cfg.opmodeLongRange ||| s.cfg.opmodeStdby

/-- R294, whole: INIT on a version mismatch. -/
def Obligations.InitVersionMismatch : Prop :=
  ∀ (p : RadioParameters) (rest : List Turn) (s : State), PortFree s → Regular s → s.pinsReady = true →
    captured s.cfg.regs.version s ≠ s.cfg.expectedVersion → Granted 2 rest s →
    ∃ t, exec (.init p) s = .next t ∧
      PutOut s t
        [hRd s.cfg.regs.version (captured s.cfg.regs.version s),
         .diag { code := s.cfg.statuses.unsupportedDevice, reason := 0x00, data := captured s.cfg.regs.version s },
         .response [s.cfg.statuses.unsupportedDevice]] ∧
      BlockIs t { s with
        drv := .absent, armed := .none, hdr := .unknown, pendRx := false, pendTx := false
        hctx := { s.hctx with t := captured s.cfg.regs.version s } } ∧
      BusFrame s t rest [] ∧
      (∀ i, needsConstruction i = true → exec i t = .next (statusAlone s.cfg.statuses.notConstructed t)) ∧
      exec .resetPins t = .next (runScript t.env.script { t with hupc := .resetPins .s1 }) ∧
      ∀ q, exec (.init q) t = .next (runScript t.env.script { t with hupc := .init q .i0 })

/-! ## BEGIN_PACKET, WRITE, END_PACKET, RECEIVE, callback registration -/

/-- R154: BEGIN_PACKET. -/
def Obligations.BeginPacketResetsFifo : Prop :=
  ∀ (rest : List Turn) (s : State), Ready s → Regular s → Granted 3 rest s →
    ∃ t, exec .beginPacket s = .next t ∧
      PutOut s t
        [hWr s.cfg.regs.opMode (s.cfg.opmodeLongRange ||| s.cfg.opmodeStdby), hWr s.cfg.regs.fifoAddrPtr 0x00,
         hWr s.cfg.regs.payloadLength 0x00, .response [s.cfg.statuses.ok]] ∧
      BlockIs t { s with mode := .standby } ∧
      BusFrame s t rest ([s.cfg.regs.opMode, s.cfg.regs.fifoAddrPtr, s.cfg.regs.payloadLength].map regAddress) ∧
      Stored s t s.cfg.regs.opMode (s.cfg.opmodeLongRange ||| s.cfg.opmodeStdby) ∧
      Stored s t s.cfg.regs.fifoAddrPtr 0x00 ∧ Stored s t s.cfg.regs.payloadLength 0x00

/-- R155: WRITE writes `K = min(n, 255 - CUR)` bytes, CUR being the byte the target returns, and reports K. That T
holds the byte beside CUR is the model's reading of R21 (log 21, DEDUCED). TXB beyond n keeps its bytes by
the model's choice (log 24). -/
def Obligations.WriteAppendsWithinCapacity : Prop :=
  ∀ (data : List Byte) (rest : List Turn) (s : State) (c p : Byte) (k : Nat), data.length ≤ 255 → Ready s → Regular s →
    c = captured s.cfg.regs.payloadLength s → p = targetReg s.env s.cfg.regs.fifoAddrPtr →
    k = min data.length (255 - c.toNat) → Granted (k + 2) rest s →
    ∃ t, exec (.write data) s = .next t ∧
      PutOut s t
        ([hRd s.cfg.regs.payloadLength c] ++ (data.take k).map (hWr s.cfg.regs.fifo) ++
         [hWr s.cfg.regs.payloadLength (c + BitVec.ofNat 8 k), .response [s.cfg.statuses.ok, BitVec.ofNat 8 k]]) ∧
      c.toNat + k ≤ 255 ∧
      BlockIs t { s with
        txb := (data ++ s.txb.drop data.length).take 255
        hctx := { s.hctx with t := c, cur := c, k := BitVec.ofNat 8 k, cnt := BitVec.ofNat 8 k } } ∧
      BusFrame s t rest
        ((List.range k).map (fun j => fifoAddress (p + BitVec.ofNat 8 j)) ++
         [regAddress s.cfg.regs.fifoAddrPtr, regAddress s.cfg.regs.payloadLength]) ∧
      Stored s t s.cfg.regs.payloadLength (c + BitVec.ofNat 8 k) ∧
      Stored s t s.cfg.regs.fifoAddrPtr (p + BitVec.ofNat 8 k) ∧
      (Live s → ∀ j, j < k → t.env.tmem.read (fifoAddress (p + BitVec.ofNat 8 j)) = data.getD j 0)

/-- R156: END_PACKET, with and without a transmit callback. -/
def Obligations.EndPacketEntersTx : Prop :=
  ∀ (rest : List Turn) (s : State), Ready s → Regular s → Granted (if s.txcb then 3 else 2) rest s →
    ∃ t, exec .endPacket s = .next t ∧
      PutOut s t
        ((if s.txcb then [hWr s.cfg.regs.dioMapping1 s.cfg.dio0MapTxDone] else []) ++
         [hWr s.cfg.regs.opMode (s.cfg.opmodeLongRange ||| s.cfg.opmodeTx), .response [s.cfg.statuses.ok]]) ∧
      BlockIs t { s with armed := if s.txcb then .txDone else .none, mode := .tx } ∧
      BusFrame s t rest
        ((if s.txcb then [regAddress s.cfg.regs.dioMapping1] else []) ++ [regAddress s.cfg.regs.opMode]) ∧
      Stored s t s.cfg.regs.opMode (s.cfg.opmodeLongRange ||| s.cfg.opmodeTx) ∧
      (s.txcb = true → Stored s t s.cfg.regs.dioMapping1 s.cfg.dio0MapTxDone)

/-- R157: RECEIVE, for every size, tracked header mode and receive callback bit. -/
def Obligations.ReceiveEntersRxContinuous : Prop :=
  ∀ (size c : Byte) (rest : List Turn) (s : State) (want : HdrMode) (bits : Byte), Ready s → Regular s →
    c = captured s.cfg.regs.modemConfig1 s →
    want = (if size = 0 then .explicit else .implicit) → bits = (if size = 0 then 0x00 else s.cfg.implicitMask) →
    Granted (3 + (if s.hdr = want then 0 else 1) + (if size = 0 then 0 else 1) + (if s.rxcb then 1 else 0)) rest s →
    ∃ t, exec (.receive size) s = .next t ∧
      PutOut s t
        ((if s.hdr = want then []
          else [hRd s.cfg.regs.modemConfig1 c,
            hWr s.cfg.regs.modemConfig1 (mergeField c s.cfg.implicitMask bits)]) ++
         (if size = 0 then [] else [hWr s.cfg.regs.payloadLength size]) ++
         (if s.rxcb then [hWr s.cfg.regs.dioMapping1 s.cfg.dio0MapRxDone] else []) ++
         [hWr s.cfg.regs.opMode (s.cfg.opmodeLongRange ||| s.cfg.opmodeRxCont), .response [s.cfg.statuses.ok]]) ∧
      BlockIs t { s with
        hdr := want, armed := if s.rxcb then .rxDone else .none, mode := .rxContinuous
        hctx := if s.hdr = want then s.hctx
          else { s.hctx with t := c, m := mergeField c s.cfg.implicitMask bits } } ∧
      BusFrame s t rest
        ((if s.hdr = want then [] else [regAddress s.cfg.regs.modemConfig1]) ++
         (if size = 0 then [] else [regAddress s.cfg.regs.payloadLength]) ++
         (if s.rxcb then [regAddress s.cfg.regs.dioMapping1] else []) ++ [regAddress s.cfg.regs.opMode]) ∧
      Stored s t s.cfg.regs.opMode (s.cfg.opmodeLongRange ||| s.cfg.opmodeRxCont) ∧
      (size ≠ 0 → Stored s t s.cfg.regs.payloadLength size)

/-- R158, R159: ON_RECEIVE and ON_TRANSMIT write their bit alone; ARMED is unchanged and there is no transfer. -/
def Obligations.CallbackRegistration : Prop :=
  ∀ (enable : Bool) (rest : List Turn) (s : State), Ready s → Granted 1 rest s →
    exec (.onReceive enable) s = .next (statusAlone s.cfg.statuses.ok (withMoves rest { s with rxcb := enable })) ∧
    exec (.onTransmit enable) s = .next (statusAlone s.cfg.statuses.ok (withMoves rest { s with txcb := enable }))

/-! ## The setters -/

/-- R181: SET_FREQUENCY writes the three bytes of the frequency word `w`, the quotient of R112 saturated to 24 bits, and keeps
the operand itself. -/
def Obligations.SetFrequencyWritesWord : Prop :=
  ∀ (frequency : Hz) (rest : List Turn) (s : State) (w : BitVec 24), Ready s → Regular s → Granted 3 rest s →
    w.toNat = min (frequency.toNat * 2 ^ s.cfg.frfShift / s.cfg.fXoscHz) 0xFFFFFF →
    ∃ t, exec (.setFrequency frequency) s = .next t ∧
      PutOut s t
        [hWr s.cfg.regs.frfMsb (w.extractLsb' 16 8), hWr s.cfg.regs.frfMid (w.extractLsb' 8 8),
         hWr s.cfg.regs.frfLsb (w.extractLsb' 0 8), .response [s.cfg.statuses.ok]] ∧
      BlockIs t { s with freq := frequency, hctx := { s.hctx with frf := w } } ∧
      BusFrame s t rest ([s.cfg.regs.frfMsb, s.cfg.regs.frfMid, s.cfg.regs.frfLsb].map regAddress) ∧
      (Live s → targetReg t.env s.cfg.regs.frfMsb ++ targetReg t.env s.cfg.regs.frfMid ++
        targetReg t.env s.cfg.regs.frfLsb = w)

/-- R112: the frequency word is the exact quotient, saturated to 24 bits; with the default crystal it saturates exactly from
1 024 000 000 Hz on; the rule's examples. -/
def Obligations.FrequencyWord : Prop :=
  (∀ (c : Config) (f : Hz), (frfWord c f).toNat = min (f.toNat * 2 ^ c.frfShift / c.fXoscHz) 0xFFFFFF) ∧
  (∀ f : Hz, 0xFFFFFF < f.toNat * 2 ^ defaultConfig.frfShift / defaultConfig.fXoscHz ↔ 1024000000 ≤ f.toNat) ∧
  frfWord defaultConfig 915000000 = 0xE4C000 ∧ frfWord defaultConfig 868000000 = 0xD90000 ∧
  frfWord defaultConfig 433000000 = 0x6C4000 ∧ frfWord defaultConfig 0 = 0x000000

/-- R182: SET_BANDWIDTH. -/
def Obligations.SetBandwidthMergesCode : Prop :=
  ∀ (bandwidth : Hz) (rest : List Turn) (s : State) (c v : Byte), Ready s → Regular s → Granted 2 rest s →
    c = captured s.cfg.regs.modemConfig1 s →
    v = mergeField c s.cfg.bwField.mask (fieldBits s.cfg.bwField ((bwCode s.cfg bandwidth).zeroExtend 8)) →
    ∃ t, exec (.setBandwidth bandwidth) s = .next t ∧
      PutOut s t [hRd s.cfg.regs.modemConfig1 c, hWr s.cfg.regs.modemConfig1 v, .response [s.cfg.statuses.ok]] ∧
      BlockIs t { s with hctx := { s.hctx with t := c, m := v, code := bwCode s.cfg bandwidth } } ∧
      BusFrame s t rest [regAddress s.cfg.regs.modemConfig1] ∧ Stored s t s.cfg.regs.modemConfig1 v

/-- R113, whole: the bandwidth code is the least bin that holds the operand, else BW_FALLBACK_CODE; and the codes of the
default bins. -/
def Obligations.BandwidthCode : Prop :=
  (∀ (c : Config) (w : Hz), c.bwBins.length = 9 →
    (∀ i, i < 9 → w.toNat ≤ c.bwBins.getD i 0 → (∀ j, j < i → c.bwBins.getD j 0 < w.toNat) →
      bwCode c w = BitVec.ofNat 4 i) ∧
    ((∀ j, j < 9 → c.bwBins.getD j 0 < w.toNat) → bwCode c w = c.bwFallbackCode)) ∧
  ∀ w : Hz, bwCode defaultConfig w =
    if w ≤ 7800 then 0 else if w ≤ 10400 then 1 else if w ≤ 15600 then 2 else if w ≤ 20800 then 3
    else if w ≤ 31250 then 4 else if w ≤ 41700 then 5 else if w ≤ 62500 then 6 else if w ≤ 125000 then 7 else 8

/-- R183: SET_SF. -/
def Obligations.SetSfMergesClampedFactor : Prop :=
  ∀ (sf : Byte) (rest : List Turn) (s : State) (c v : Byte), Ready s → Regular s → Granted 2 rest s →
    c = captured s.cfg.regs.modemConfig2 s →
    v = mergeField c s.cfg.sfField.mask
      (fieldBits s.cfg.sfField (if sf < 6 then 6 else if sf ≤ 12 then sf else 12)) →
    ∃ t, exec (.setSf sf) s = .next t ∧
      PutOut s t [hRd s.cfg.regs.modemConfig2 c, hWr s.cfg.regs.modemConfig2 v, .response [s.cfg.statuses.ok]] ∧
      BlockIs t { s with hctx := { s.hctx with t := c, m := v } } ∧
      BusFrame s t rest [regAddress s.cfg.regs.modemConfig2] ∧ Stored s t s.cfg.regs.modemConfig2 v

/-- R111: an operand outside a clamp's range behaves identically to the nearest bound. -/
def Obligations.ClampIdempotence : Prop :=
  ∀ (x : Byte) (rest : List Turn) (s : State), Ready s → Granted 2 rest s →
    (x < 6 → exec (.setSf x) s = exec (.setSf 6) s) ∧ (12 < x → exec (.setSf x) s = exec (.setSf 12) s) ∧
    (x < 5 → exec (.setCr x) s = exec (.setCr 5) s) ∧ (8 < x → exec (.setCr x) s = exec (.setCr 8) s) ∧
    (s.cfg.paSelect = .paBoost → x < 2 → exec (.setTxPower x) s = exec (.setTxPower 2) s) ∧
    (s.cfg.paSelect = .paBoost → 17 < x → exec (.setTxPower x) s = exec (.setTxPower 17) s) ∧
    (s.cfg.paSelect = .rfo → 14 < x → exec (.setTxPower x) s = exec (.setTxPower 14) s)

/-- R184: SET_CR. -/
def Obligations.SetCrMergesClampedRate : Prop :=
  ∀ (d : Byte) (rest : List Turn) (s : State) (c v : Byte), Ready s → Regular s → Granted 2 rest s →
    c = captured s.cfg.regs.modemConfig1 s →
    v = mergeField c s.cfg.crField.mask
      (fieldBits s.cfg.crField (if d < 5 then 1 else if d ≤ 8 then d - 4 else 4)) →
    ∃ t, exec (.setCr d) s = .next t ∧
      PutOut s t [hRd s.cfg.regs.modemConfig1 c, hWr s.cfg.regs.modemConfig1 v, .response [s.cfg.statuses.ok]] ∧
      BlockIs t { s with hctx := { s.hctx with t := c, m := v } } ∧
      BusFrame s t rest [regAddress s.cfg.regs.modemConfig1] ∧ Stored s t s.cfg.regs.modemConfig1 v

/-- R185: SET_PREAMBLE. -/
def Obligations.SetPreambleWritesBothBytes : Prop :=
  ∀ (len : BitVec 16) (rest : List Turn) (s : State), Ready s → Regular s → Granted 2 rest s →
    ∃ t, exec (.setPreamble len) s = .next t ∧
      PutOut s t
        [hWr s.cfg.regs.preambleMsb (len.extractLsb' 8 8), hWr s.cfg.regs.preambleLsb (len.extractLsb' 0 8),
         .response [s.cfg.statuses.ok]] ∧
      BlockIs t s ∧
      BusFrame s t rest ([s.cfg.regs.preambleMsb, s.cfg.regs.preambleLsb].map regAddress) ∧
      (Live s → targetReg t.env s.cfg.regs.preambleMsb ++ targetReg t.env s.cfg.regs.preambleLsb = len)

/-- R186: SET_SYNC. -/
def Obligations.SetSyncWritesWord : Prop :=
  ∀ (sync : Byte) (rest : List Turn) (s : State), Ready s → Regular s → Granted 1 rest s →
    ∃ t, exec (.setSync sync) s = .next t ∧
      PutOut s t [hWr s.cfg.regs.syncWord sync, .response [s.cfg.statuses.ok]] ∧
      BlockIs t s ∧ BusFrame s t rest [regAddress s.cfg.regs.syncWord] ∧ Stored s t s.cfg.regs.syncWord sync

/-- R187: IMPLICIT_HEADER, a no-op where the tracked mode matches, else a read and a merging write; after h1 HDR is set and
the read alone has been made. -/
def Obligations.ImplicitHeaderTracksMode : Prop :=
  ∀ (implicit : Bool) (rest : List Turn) (s : State) (c v : Byte) (want : HdrMode), Ready s → Regular s →
    want = (if implicit then .implicit else .explicit) → c = captured s.cfg.regs.modemConfig1 s →
    v = mergeField c s.cfg.implicitMask (if implicit then s.cfg.implicitMask else 0x00) →
    (s.hdr = want → Granted 1 rest s →
      exec (.implicitHeader implicit) s = .next (statusAlone s.cfg.statuses.ok (withMoves rest s))) ∧
    (s.hdr ≠ want → Granted 2 rest s →
      ∃ t, exec (.implicitHeader implicit) s = .next t ∧
        PutOut s t [hRd s.cfg.regs.modemConfig1 c, hWr s.cfg.regs.modemConfig1 v, .response [s.cfg.statuses.ok]] ∧
        BlockIs t { s with hdr := want, hctx := { s.hctx with t := c, m := v } } ∧
        BusFrame s t rest [regAddress s.cfg.regs.modemConfig1] ∧ Stored s t s.cfg.regs.modemConfig1 v) ∧
    (s.hdr ≠ want →
      (turn .host { s with hupc := .implicitHeader implicit .h1 }).hdr = want ∧
      PutOut s (turn .host { s with hupc := .implicitHeader implicit .h1 }) [hRd s.cfg.regs.modemConfig1 c])

/-- R188: ENABLE_CRC. -/
def Obligations.EnableCrcMergesBit : Prop :=
  ∀ (enable : Bool) (rest : List Turn) (s : State) (c v : Byte), Ready s → Regular s → Granted 2 rest s →
    c = captured s.cfg.regs.modemConfig2 s →
    v = mergeField c s.cfg.crcMask (if enable then s.cfg.crcMask else 0x00) →
    ∃ t, exec (.enableCrc enable) s = .next t ∧
      PutOut s t [hRd s.cfg.regs.modemConfig2 c, hWr s.cfg.regs.modemConfig2 v, .response [s.cfg.statuses.ok]] ∧
      BlockIs t { s with hctx := { s.hctx with t := c, m := v } } ∧
      BusFrame s t rest [regAddress s.cfg.regs.modemConfig2] ∧ Stored s t s.cfg.regs.modemConfig2 v

/-- R189, R115, R67: SET_TX_POWER, both amplifier outputs: one whole byte of the three fields of REG_PA_CONFIG, `b` being the
output power; with the fields at R67's places, the bytes of R115. -/
def Obligations.SetTxPowerWritesByte : Prop :=
  ∀ (level : Byte) (rest : List Turn) (s : State) (b v : Byte), Ready s → Regular s → Granted 1 rest s →
    b = (match s.cfg.paSelect with
      | .paBoost => (if level < 2 then 2 else if level ≤ 17 then level else 17) - 2
      | .rfo => if level ≤ 14 then level else 14) →
    v = (match s.cfg.paSelect with
      | .paBoost => s.cfg.paSelectMask ||| fieldBits s.cfg.paOutputPower b
      | .rfo => fieldBits s.cfg.paMaxPower 7 ||| fieldBits s.cfg.paOutputPower b) →
    (s.cfg.paSelectMask = 0x80 → s.cfg.paMaxPower = ⟨0x70, 4⟩ → s.cfg.paOutputPower = ⟨0x0F, 0⟩ →
      v = (match s.cfg.paSelect with
        | .paBoost => 0x80 ||| b
        | .rfo => 0x70 ||| b)) ∧
    ∃ t, exec (.setTxPower level) s = .next t ∧
      PutOut s t [hWr s.cfg.regs.paConfig v, .response [s.cfg.statuses.ok]] ∧
      BlockIs t s ∧ BusFrame s t rest [regAddress s.cfg.regs.paConfig] ∧ Stored s t s.cfg.regs.paConfig v

/-- R70: under the reference target, a setter issued twice with the same operand leaves the target as after issuing it
once. -/
def Obligations.SettersIdempotent : Prop :=
  ∀ (i : Instr) (rest : List Turn) (s : State), isSetter i = true → Ready s → Regular s → Live s → Granted 6 rest s →
    ∃ t u, exec i s = .next t ∧ exec i t = .next u ∧ u.env.tmem = t.env.tmem

/-- R70: under the reference target, two setters of different fields commute. -/
def Obligations.SettersCommute : Prop :=
  ∀ (i j : Instr) (rest : List Turn) (s : State), isSetter i = true → isSetter j = true → sameSetter i j = false →
    Ready s → Regular s → Live s → Granted 6 rest s →
    ∃ t u t' u', exec i s = .next t ∧ exec j t = .next u ∧ exec j s = .next t' ∧ exec i t' = .next u' ∧
      u.env.tmem = u'.env.tmem

/-! ## Status reads -/

/-- R202: PACKET_RSSI answers the raw byte minus the band's offset, in 16-bit two's complement. -/
def Obligations.PacketRssiAnswersDbm : Prop :=
  ∀ (rest : List Turn) (s : State) (r : Byte), Ready s → Regular s → Granted 1 rest s →
    r = captured s.cfg.regs.pktRssiValue s →
    ∃ (t : State) (hi lo : Byte), exec .packetRssi s = .next t ∧
      PutOut s t [hRd s.cfg.regs.pktRssiValue r, .response [s.cfg.statuses.ok, hi, lo]] ∧
      (hi ++ lo).toInt = (r.toNat : Int) - (if s.freq.toNat < 868000000 then 164 else 157) ∧
      BlockIs t { s with hctx := { s.hctx with t := r } } ∧ BusFrame s t rest []

/-- R203: PACKET_SNR hands out the raw byte. -/
def Obligations.PacketSnrAnswersRawByte : Prop :=
  ∀ (rest : List Turn) (s : State) (r : Byte), Ready s → Regular s → Granted 1 rest s →
    r = captured s.cfg.regs.pktSnrValue s →
    ∃ t, exec .packetSnr s = .next t ∧
      PutOut s t [hRd s.cfg.regs.pktSnrValue r, .response [s.cfg.statuses.ok, r]] ∧
      BlockIs t { s with hctx := { s.hctx with t := r } } ∧ BusFrame s t rest []

/-- R204 (which the spec marks derived): the two transforms, and the range R202 gives the first. The second reads the SNR
register as unsigned: the spec's decision D31 (U5), the model's reading of it log 16 (DEDUCED). -/
def Obligations.StatusTransforms : Prop :=
  ∀ (raw : Byte) (freq : Hz),
    rssiOf raw freq = (raw.toNat : Int) - (if freq.toNat < 868000000 then 164 else 157) ∧
    -164 ≤ rssiOf raw freq ∧ rssiOf raw freq ≤ 98 ∧ snrOf raw = (raw.toNat : Rat) / 4

/-! ## The framer -/

/-- R210: ATTACH. That the other fields of the slot stay is the model's choice (log 25). -/
def Obligations.AttachResetsFramer : Prop :=
  ∀ (rest : List Turn) (s : State), Ready s → Granted 1 rest s →
    exec .attach s =
      .next (statusAlone s.cfg.statuses.ok (withMoves rest
        { s with rxcb := true, txcb := true, seq := 0, txDone := false, slot := { s.slot with valid := false } }))

/-- R213, R214: IS_PACKET_AVAILABLE and READ_PACKET; the stored RSSI is in the range the invariant keeps it in. That the other
fields of the slot stay is the model's choice (log 25). -/
def Obligations.SlotIsReadAndCleared : Prop :=
  ∀ (rest : List Turn) (s : State), Ready s → Granted 1 rest s → -164 ≤ s.slot.rssi → s.slot.rssi ≤ 98 →
    exec .isPacketAvailable s =
      .next { withMoves rest s with out := .response [s.cfg.statuses.ok, if s.slot.valid then 1 else 0] :: s.out } ∧
    (s.slot.valid = false →
      exec .readPacket s = .next { withMoves rest s with out := .response [s.cfg.statuses.ok, 0x00] :: s.out }) ∧
    (s.slot.valid = true →
      ∃ hi lo : Byte, (hi ++ lo).toInt = s.slot.rssi ∧
        exec .readPacket s =
          .next { withMoves rest s with
            slot := { s.slot with valid := false }
            out := .response
              ([s.cfg.statuses.ok, 0x01, s.slot.srcAddress, s.slot.dstAddress, s.slot.sequenceNumber, s.slot.payloadLength,
                s.slot.count] ++ s.slot.payload.take s.slot.count.toNat ++ [hi, lo, s.slot.snrRaw]) :: s.out })

/-- R212 with R84, R251 and R252: SEND_PACKET under the reference target, completed by TxComplete and the transmit service while
HCTX polls, for every tracked header mode, receive callback bit and latched edge, in every admitted configuration that fits
the literals of R84 (the mode bits of Tx are 3, the routing byte of TX done routes DIO0 to it, and bit 3 of the flags is
TX done). Without a transmit callback it cannot complete: that form is SendPacketTimesOut. T and IT hold the latest byte read (log 21, DEDUCED). -/
def Obligations.SendPacketCompletes : Prop :=
  ∀ (src dst : Byte) (payload : List Byte) (n : Nat) (rest : List Turn) (s : State) (f c : Byte),
    n = payload.length → n ≤ 251 → s.hupc = .idle → s.iupc = .idle → s.drv = .ready → s.lock = .free →
    Regular s → Live s → s.txcb = true →
    (s.cfg.opmodeLongRange ||| s.cfg.opmodeTx).extractLsb' 0 3 = 3 → s.cfg.dio0MapTxDone.extractLsb' 6 2 = 1 →
    f = targetReg s.env s.cfg.regs.irqFlags ||| 0x08 → flagSet f s.cfg.irqTxDone = true →
    c = targetReg s.env s.cfg.regs.modemConfig1 →
    s.env.script = List.replicate (20 + n) Turn.host ++ [Turn.txComplete, Turn.dispatch true] ++
      List.replicate (11 + (if s.hdr = .explicit then 0 else 1) + (if s.rxcb then 1 else 0)) Turn.irq ++
      List.replicate 2 Turn.host ++ rest →
    ∃ t, exec (.sendPacket src dst payload) s = .next t ∧
      PutOut s t
        ([hWr s.cfg.regs.opMode (s.cfg.opmodeLongRange ||| s.cfg.opmodeStdby), hWr s.cfg.regs.fifoAddrPtr 0x00,
          hWr s.cfg.regs.payloadLength 0x00, hRd s.cfg.regs.payloadLength 0x00, hWr s.cfg.regs.fifo src,
          hWr s.cfg.regs.fifo dst, hWr s.cfg.regs.fifo (s.seq + 1), hWr s.cfg.regs.fifo (BitVec.ofNat 8 n),
          hWr s.cfg.regs.payloadLength 0x04, hRd s.cfg.regs.payloadLength 0x04] ++
         payload.map (hWr s.cfg.regs.fifo) ++
         [hWr s.cfg.regs.payloadLength (BitVec.ofNat 8 (4 + n)), hWr s.cfg.regs.dioMapping1 s.cfg.dio0MapTxDone,
          hWr s.cfg.regs.opMode (s.cfg.opmodeLongRange ||| s.cfg.opmodeTx),
          iRd s.cfg.regs.irqFlags f, iWr s.cfg.regs.irqFlags f] ++
         (if s.hdr = .explicit then []
          else [iRd s.cfg.regs.modemConfig1 c,
            iWr s.cfg.regs.modemConfig1 (mergeField c s.cfg.implicitMask 0x00)]) ++
         (if s.rxcb then [iWr s.cfg.regs.dioMapping1 s.cfg.dio0MapRxDone] else []) ++
         [iWr s.cfg.regs.opMode (s.cfg.opmodeLongRange ||| s.cfg.opmodeRxCont), .response [s.cfg.statuses.ok]]) ∧
      BlockIs t { s with
        seq := s.seq + 1, txDone := true, mode := .rxContinuous, hdr := .explicit, pendTx := false, pcnt := 0
        armed := if s.rxcb then .rxDone else .none
        txb := (payload ++ s.txb.drop n).take 255
        hctx := { s.hctx with
          t := 4, cur := 4, k := BitVec.ofNat 8 n, cnt := BitVec.ofNat 8 n
          hb := [src, dst, s.seq + 1, BitVec.ofNat 8 n] }
        ictx := { s.ictx with
          f := f
          it := if s.hdr = .explicit then f else c
          im := if s.hdr = .explicit then s.ictx.im else mergeField c s.cfg.implicitMask 0x00 } } ∧
      BusFrame s t rest
        ((List.range (4 + n)).map (fun j => 256 + j) ++
         [s.cfg.regs.opMode, s.cfg.regs.fifoAddrPtr, s.cfg.regs.payloadLength, s.cfg.regs.dioMapping1,
          s.cfg.regs.irqFlags].map regAddress ++
         (if s.hdr = .explicit then [] else [regAddress s.cfg.regs.modemConfig1])) ∧
      (∀ j, j < 4 + n → t.env.tmem.read (256 + j) =
        ([src, dst, s.seq + 1, BitVec.ofNat 8 n] ++ payload).getD j 0) ∧
      targetReg t.env s.cfg.regs.payloadLength = BitVec.ofNat 8 (4 + n)

/-- R212 and R270: SEND_PACKET under the reference target whose TXDONE never comes: after POLL_MAX ticks it reports
TransmitTimeout, and nothing is undone. That T holds 4 is the model's reading of R21
(log 21, DEDUCED). -/
def Obligations.SendPacketTimesOut : Prop :=
  ∀ (src dst : Byte) (payload : List Byte) (n : Nat) (rest : List Turn) (s : State),
    n = payload.length → n ≤ 251 → s.hupc = .idle → s.iupc = .idle → s.drv = .ready → s.lock = .free →
    Regular s → Live s →
    s.env.script = List.replicate (19 + n + (if s.txcb then 1 else 0)) Turn.host ++
      List.replicate s.cfg.pollMax.toNat Turn.tick ++ List.replicate 2 Turn.host ++ rest →
    ∃ t, exec (.sendPacket src dst payload) s = .next t ∧
      PutOut s t
        ([hWr s.cfg.regs.opMode (s.cfg.opmodeLongRange ||| s.cfg.opmodeStdby), hWr s.cfg.regs.fifoAddrPtr 0x00,
          hWr s.cfg.regs.payloadLength 0x00, hRd s.cfg.regs.payloadLength 0x00, hWr s.cfg.regs.fifo src,
          hWr s.cfg.regs.fifo dst, hWr s.cfg.regs.fifo (s.seq + 1), hWr s.cfg.regs.fifo (BitVec.ofNat 8 n),
          hWr s.cfg.regs.payloadLength 0x04, hRd s.cfg.regs.payloadLength 0x04] ++
         payload.map (hWr s.cfg.regs.fifo) ++
         [hWr s.cfg.regs.payloadLength (BitVec.ofNat 8 (4 + n))] ++
         (if s.txcb then [hWr s.cfg.regs.dioMapping1 s.cfg.dio0MapTxDone] else []) ++
         [hWr s.cfg.regs.opMode (s.cfg.opmodeLongRange ||| s.cfg.opmodeTx),
          .diag { code := s.cfg.statuses.transmitTimeout, reason := 0x00, data := s.cfg.pollMax },
          .response [s.cfg.statuses.transmitTimeout]]) ∧
      BlockIs t { s with
        seq := s.seq + 1, txDone := false, mode := .tx, pcnt := s.cfg.pollMax
        armed := if s.txcb then .txDone else .none
        txb := (payload ++ s.txb.drop n).take 255
        hctx := { s.hctx with
          t := 4, cur := 4, k := BitVec.ofNat 8 n, cnt := BitVec.ofNat 8 n
          hb := [src, dst, s.seq + 1, BitVec.ofNat 8 n] } } ∧
      BusFrame s t rest
        ((List.range (4 + n)).map (fun j => 256 + j) ++
         [s.cfg.regs.opMode, s.cfg.regs.fifoAddrPtr, s.cfg.regs.payloadLength].map regAddress ++
         (if s.txcb then [regAddress s.cfg.regs.dioMapping1] else []))

/-! ## The interrupt -/

/-- R244, whole: the edge is attributed to the handler attached at its moment; with none it is lost. -/
def Obligations.EdgeRule : Prop :=
  ∀ s : State, turn .edge s =
    if s.armed = .rxDone then { s with pendRx := true }
    else if s.armed = .txDone then { s with pendTx := true } else s

/-- R245, R248: the dispatch clears one latch and enters its service; nothing else changes and ARMED is not looked at. With
both latches set it is the free choice the move carries. -/
def Obligations.DispatchRule : Prop :=
  ∀ (txFirst : Bool) (s : State),
    (s.iupc = .idle → s.pendRx = true → (s.pendTx = false ∨ txFirst = false) →
      turn (.dispatch txFirst) s = { s with pendRx := false, iupc := .isrRx .r1 }) ∧
    (s.iupc = .idle → s.pendTx = true → (s.pendRx = false ∨ txFirst = true) →
      turn (.dispatch txFirst) s = { s with pendTx := false, iupc := .isrTx .t1 }) ∧
    ((s.iupc ≠ .idle ∨ (s.pendRx = false ∧ s.pendTx = false)) → turn (.dispatch txFirst) s = s)

/-- R247, R250: a valid reception of `raw` (more than four bytes), whatever bytes the target answers: ISR_RX reads it under
the lock, the callback overwrites the slot, and reception is re-armed in explicit-header mode. That IT holds the latest byte
ICTX read is the model's reading of R22 (log 21, DEDUCED), here and below. RXBUF from N on
keeps its bytes by the model's choice (log 24). -/
def Obligations.ReceiveServiceStoresPacket : Prop :=
  ∀ (s : State) (f x a y r q c : Byte) (raw draws more : List Byte) (n : Nat),
    s.iupc = .isrRx .r1 → s.lock = .free → s.rxcb = true → s.rxbuf.length = 255 →
    flagSet f s.cfg.irqRxDone = true → flagSet f (s.cfg.irqCrcError ||| s.cfg.irqRxTimeout) = false →
    n = raw.length → 4 < n → n ≤ 255 → s.env.kind = .arbitrary →
    s.env.answers = [f, x, a, y, BitVec.ofNat 8 n] ++ raw ++ [r, q] ++ draws ++ more →
    draws.length = (if s.hdr = .explicit then 2 else 4) → c = draws.getD 0 0 →
    ∃ t, t = runTurns (List.replicate (18 + n + (if s.hdr = .explicit then 0 else 1)) .irq) s ∧
      PutOut s t
        ([iRd s.cfg.regs.irqFlags f, iWr s.cfg.regs.irqFlags f, iRd s.cfg.regs.fifoRxCurrentAddr a,
          iWr s.cfg.regs.fifoAddrPtr a,
          iRd (if s.hdr = .implicit then s.cfg.regs.payloadLength else s.cfg.regs.rxNbBytes) (BitVec.ofNat 8 n)] ++
         raw.map (iRd s.cfg.regs.fifo) ++ [iRd s.cfg.regs.pktRssiValue r, iRd s.cfg.regs.pktSnrValue q] ++
         (if s.hdr = .explicit then []
          else [iRd s.cfg.regs.modemConfig1 c,
            iWr s.cfg.regs.modemConfig1 (mergeField c s.cfg.implicitMask 0x00)]) ++
         [iWr s.cfg.regs.dioMapping1 s.cfg.dio0MapRxDone,
          iWr s.cfg.regs.opMode (s.cfg.opmodeLongRange ||| s.cfg.opmodeRxCont)]) ∧
      BlockIs t { s with
        iupc := .idle, hdr := .explicit, armed := .rxDone, mode := .rxContinuous
        rxbuf := raw ++ s.rxbuf.drop n
        slot :=
          { valid := true, srcAddress := raw.getD 0 0, dstAddress := raw.getD 1 0,
            sequenceNumber := raw.getD 2 0, payloadLength := raw.getD 3 0, count := BitVec.ofNat 8 (n - 4),
            payload := raw.drop 4, snrRaw := q
            rssi := (r.toNat : Int) - (if s.freq.toNat < 868000000 then 164 else 157) }
        ictx :=
          { f := f, a := a, n := BitVec.ofNat 8 n, icnt := BitVec.ofNat 8 n, rssiRaw := r, snrRaw := q
            it := if s.hdr = .explicit then q else c
            im := if s.hdr = .explicit then s.ictx.im else mergeField c s.cfg.implicitMask 0x00 } } ∧
      t.cs = .high ∧ t.env = { s.env with answers := more }

/-- R247, R250 c1: a raw payload of at most four bytes leaves the slot as it was, puts out MalformedFrame, and reception is
re-armed in explicit-header mode, for every tracked header mode. RXBUF from N on keeps its bytes by the model's
choice (log 24). -/
def Obligations.MalformedFrameLeavesSlot : Prop :=
  ∀ (s : State) (f x a y c : Byte) (raw draws more : List Byte) (n : Nat),
    s.iupc = .isrRx .r1 → s.lock = .free → s.rxcb = true → s.rxbuf.length = 255 →
    flagSet f s.cfg.irqRxDone = true → flagSet f (s.cfg.irqCrcError ||| s.cfg.irqRxTimeout) = false →
    n = raw.length → n ≤ 4 → s.env.kind = .arbitrary →
    s.env.answers = [f, x, a, y, BitVec.ofNat 8 n] ++ raw ++ draws ++ more →
    draws.length = (if s.hdr = .explicit then 2 else 4) → c = draws.getD 0 0 →
    ∃ t, t = runTurns (List.replicate (14 + n + (if s.hdr = .explicit then 0 else 1)) .irq) s ∧
      PutOut s t
        ([iRd s.cfg.regs.irqFlags f, iWr s.cfg.regs.irqFlags f, iRd s.cfg.regs.fifoRxCurrentAddr a,
          iWr s.cfg.regs.fifoAddrPtr a,
          iRd (if s.hdr = .implicit then s.cfg.regs.payloadLength else s.cfg.regs.rxNbBytes) (BitVec.ofNat 8 n)] ++
         raw.map (iRd s.cfg.regs.fifo) ++
         [.diag { code := s.cfg.statuses.malformedFrame, reason := 0x00, data := BitVec.ofNat 8 n }] ++
         (if s.hdr = .explicit then []
          else [iRd s.cfg.regs.modemConfig1 c,
            iWr s.cfg.regs.modemConfig1 (mergeField c s.cfg.implicitMask 0x00)]) ++
         [iWr s.cfg.regs.dioMapping1 s.cfg.dio0MapRxDone,
          iWr s.cfg.regs.opMode (s.cfg.opmodeLongRange ||| s.cfg.opmodeRxCont)]) ∧
      BlockIs t { s with
        iupc := .idle, hdr := .explicit, armed := .rxDone, mode := .rxContinuous
        rxbuf := raw ++ s.rxbuf.drop n
        ictx := { s.ictx with
          f := f, a := a, n := BitVec.ofNat 8 n, icnt := BitVec.ofNat 8 n
          it := if s.hdr = .explicit then raw.getLastD (BitVec.ofNat 8 n) else c
          im := if s.hdr = .explicit then s.ictx.im else mergeField c s.cfg.implicitMask 0x00 } } ∧
      t.cs = .high ∧ t.env = { s.env with answers := more }

/-- R247 r4, r11 and R251 t4, t8: a service that finds its flag absent (reason 1), a bad reception (2) or no callback (3)
makes two transfers, puts out one Diag event, releases the lock and ends; nothing else of the block changes. -/
def Obligations.AnomalousServiceReports : Prop :=
  ∀ (s : State) (f x : Byte) (more : List Byte) (reason : Byte), s.lock = .free → s.env.kind = .arbitrary →
    s.env.answers = [f, x] ++ more →
    ((s.iupc = .isrRx .r1 ∧
        ((reason = 1 ∧ flagSet f s.cfg.irqRxDone = false) ∨
         (reason = 2 ∧ flagSet f s.cfg.irqRxDone = true ∧
            flagSet f (s.cfg.irqCrcError ||| s.cfg.irqRxTimeout) = true) ∨
         (reason = 3 ∧ flagSet f s.cfg.irqRxDone = true ∧
            flagSet f (s.cfg.irqCrcError ||| s.cfg.irqRxTimeout) = false ∧ s.rxcb = false))) ∨
      (s.iupc = .isrTx .t1 ∧
        ((reason = 1 ∧ flagSet f s.cfg.irqTxDone = false) ∨
         (reason = 3 ∧ flagSet f s.cfg.irqTxDone = true ∧ s.txcb = false)))) →
    ∃ t, t = runTurns (List.replicate 5 .irq) s ∧
      PutOut s t [iRd s.cfg.regs.irqFlags f, iWr s.cfg.regs.irqFlags f, .diag ⟨s.cfg.statuses.interruptAnomaly, reason, f⟩] ∧
      BlockIs t { s with iupc := .idle, ictx := { s.ictx with f := f, it := f } } ∧
      t.env = { s.env with answers := more }

/-- R251, R252: a genuine transmit-done: ISR_TX detaches its handler under the lock, the callback sets TXDONE, and reception is
re-armed, for every tracked header mode and receive callback bit; and the step t5 itself (R242), before the re-arm writes ARMED
again: it leaves no handler attached and changes nothing else. -/
def Obligations.TransmitServiceSetsDone : Prop :=
  (∀ (s : State) (f x c : Byte) (draws more : List Byte), s.iupc = .isrTx .t1 → s.lock = .free → s.txcb = true →
     flagSet f s.cfg.irqTxDone = true → s.env.kind = .arbitrary → s.env.answers = [f, x] ++ draws ++ more →
     draws.length = 1 + (if s.hdr = .explicit then 0 else 2) + (if s.rxcb then 1 else 0) → c = draws.getD 0 0 →
     ∃ t, t = runTurns
         (List.replicate (11 + (if s.hdr = .explicit then 0 else 1) + (if s.rxcb then 1 else 0)) .irq) s ∧
       PutOut s t
         ([iRd s.cfg.regs.irqFlags f, iWr s.cfg.regs.irqFlags f] ++
          (if s.hdr = .explicit then []
           else [iRd s.cfg.regs.modemConfig1 c,
             iWr s.cfg.regs.modemConfig1 (mergeField c s.cfg.implicitMask 0x00)]) ++
          (if s.rxcb then [iWr s.cfg.regs.dioMapping1 s.cfg.dio0MapRxDone] else []) ++
          [iWr s.cfg.regs.opMode (s.cfg.opmodeLongRange ||| s.cfg.opmodeRxCont)]) ∧
       BlockIs t { s with
         iupc := .idle, txDone := true, hdr := .explicit, armed := if s.rxcb then .rxDone else .none
         mode := .rxContinuous
         ictx := { s.ictx with
           f := f
           it := if s.hdr = .explicit then f else c
           im := if s.hdr = .explicit then s.ictx.im else mergeField c s.cfg.implicitMask 0x00 } } ∧
       t.env = { s.env with answers := more }) ∧
  (∀ s : State, s.iupc = .isrTx .t5 →
     (turn .irq s).armed = .none ∧ turn .irq s = { s with armed := .none, iupc := .isrTx .t6 })

/-- R13, R14, R33, R73, R212 s15, R253, R270, R275 (b): a context whose next step is not enabled waits, for the lock or for a poll
tick, and under ICTX_PREEMPTS HCTX takes no step while a service is in progress and need not wait for the lock. A tick ends one
wait of the poll loop and is counted; outside the loop, and where the loop's test is false, it has no effect. That the test and the
wait of s15 are two stands, and that a tick at the first takes the test with it, is log 13 (DEDUCED); that a tick too is held back
under ICTX_PREEMPTS (the hypothesis on `hostBlocked` of its clauses) is log 17 (DEDUCED). -/
def Obligations.WaitingMovesChangeNothing : Prop :=
  ∀ s : State,
    (∀ src dst n, s.hupc = .sendPacket src dst n .s3 → s.lock ≠ .free → turn .host s = s) ∧
    ((s.iupc = .isrRx .r1 ∨ s.iupc = .isrTx .t1) → s.lock ≠ .free → turn .irq s = s) ∧
    (s.cfg.ictxPreempts = true → s.iupc ≠ .idle →
      (s.iupc = .isrRx .r1 ∨ s.iupc = .isrTx .t1 → s.lock = .free) → turn .host s = s) ∧
    ((∀ src dst n, s.hupc ≠ .sendPacket src dst n .s15 ∧ s.hupc ≠ .sendPacket src dst n .s15Await) →
      turn .tick s = s) ∧
    (∀ src dst n, s.hupc = .sendPacket src dst n .s15Await →
      turn .host s = s ∧
      (hostBlocked s = false →
        turn .tick s = { s with pcnt := s.pcnt + 1, hupc := .sendPacket src dst n .s15 })) ∧
    (∀ src dst n, s.hupc = .sendPacket src dst n .s15 → hostBlocked s = false →
      (pollAgain s = true →
        turn .host s = { s with hupc := .sendPacket src dst n .s15Await } ∧
        turn .tick s = { s with pcnt := s.pcnt + 1 }) ∧
      (pollAgain s = false → turn .tick s = s))

/-- R215: what one block's SEND_PACKET puts into the FIFO of a target that honours its writes, delivered as the raw payload of
a valid reception to another block, gives that block's slot the same fields and payload. The sender's moves end with its command in progress (log 13): the frame
is compared as soon as the target holds it whole. -/
def Obligations.PacketRoundTrip : Prop :=
  ∀ (A B : State) (src dst : Byte) (payload raw : List Byte) (n : Nat) (f x a y r q : Byte) (draws more : List Byte),
    n = payload.length → 1 ≤ n → n ≤ 251 →
    A.hupc = .idle → A.iupc = .idle → A.drv = .ready → A.lock = .free → Regular A → Live A →
    A.env.script = List.replicate (19 + n + (if A.txcb then 1 else 0)) .host →
    B.iupc = .isrRx .r1 → B.lock = .free → B.rxcb = true → B.rxbuf.length = 255 → B.env.kind = .arbitrary →
    flagSet f B.cfg.irqRxDone = true → flagSet f (B.cfg.irqCrcError ||| B.cfg.irqRxTimeout) = false →
    B.env.answers = [f, x, a, y, BitVec.ofNat 8 (4 + n)] ++ raw ++ [r, q] ++ draws ++ more →
    draws.length = (if B.hdr = .explicit then 2 else 4) →
    ∃ t, exec (.sendPacket src dst payload) A = .next t ∧
      (raw = (List.range (4 + n)).map (fun j => t.env.tmem.read (256 + j)) →
        ∃ u, u = runTurns (List.replicate (22 + n + (if B.hdr = .explicit then 0 else 1)) .irq) B ∧
          u.iupc = .idle ∧ u.slot.valid = true ∧ u.slot.srcAddress = src ∧ u.slot.dstAddress = dst ∧
          u.slot.sequenceNumber = A.seq + 1 ∧ u.slot.payloadLength = BitVec.ofNat 8 n ∧
          u.slot.count = BitVec.ofNat 8 n ∧ u.slot.payload = payload)

/-! ## Invariants, reset, who writes what -/

/-- R319 and the rules it rests on: every step keeps the invariant, whatever moves are laid down and whatever the target
answers. -/
def Obligations.EveryStepKeepsInv : Prop :=
  ∀ s t : State, Inv s → step s = .next t → Inv t

/-- The invariant holds after block reset. -/
def Obligations.InvAtReset : Prop := Inv State.reset

/-- R46: the values block reset gives. -/
def Obligations.ResetValues : Prop :=
  State.reset.hupc = .idle ∧ State.reset.iupc = .idle ∧ State.reset.txDone = false ∧
  State.reset.slot.valid = false ∧ State.reset.mode = .standby ∧ State.reset.lock = .free ∧
  State.reset.hdr = .unknown ∧ State.reset.freq = 0 ∧ State.reset.armed = .none ∧ State.reset.rxcb = false ∧
  State.reset.txcb = false ∧ State.reset.drv = .absent ∧ State.reset.pinsReady = false ∧ State.reset.seq = 0 ∧
  State.reset.pcnt = 0 ∧ State.reset.cs = .undriven ∧ State.reset.rst = .undriven ∧
  State.reset.pendRx = false ∧ State.reset.pendTx = false ∧ turn .edge State.reset = State.reset

/-- R160: MODE changes only at the steps of the table, each together with one write of REG_OP_MODE, from any current MODE. -/
def Obligations.ModeChangesWithItsWrite : Prop :=
  ∀ s : State,
    (∀ m b, hostModeStep s.cfg s.hupc = some (m, b) → hostBlocked s = false →
      (turn .host s).mode = m ∧
      (PutOut s (turn .host s) [hWr s.cfg.regs.opMode b] ∨
        PutOut s (turn .host s) [hWr s.cfg.regs.opMode b, .response [s.cfg.statuses.ok]])) ∧
    (∀ m b, irqModeStep s.cfg s.iupc = some (m, b) →
      (turn .irq s).mode = m ∧ PutOut s (turn .irq s) [iWr s.cfg.regs.opMode b]) ∧
    (hostModeStep s.cfg s.hupc = none → (turn .host s).mode = s.mode) ∧
    (irqModeStep s.cfg s.iupc = none → (turn .irq s).mode = s.mode) ∧
    (∀ move, move ≠ .host → move ≠ .irq → (turn move s).mode = s.mode)

/-- R48, its column of writers, every row: which move at which step may change each register (where MODE, PEND_RX, PEND_TX and
CS change, to what); and no move changes the configuration. -/
def Obligations.WritersOfState : Prop :=
  ∀ (move : Turn) (s t : State), t = turn move s →
    t.cfg = s.cfg ∧ t.spiFrame = s.spiFrame ∧
    (t.seq ≠ s.seq → move = .host ∧ (s.hupc = .attach ∨ ∃ src dst n, s.hupc = .sendPacket src dst n .s1)) ∧
    (t.freq ≠ s.freq → move = .host ∧ ((∃ f, s.hupc = .setFrequency f .f1) ∨ ∃ p, s.hupc = .init p .i3)) ∧
    (t.rxcb ≠ s.rxcb → move = .host ∧ (s.hupc = .attach ∨ ∃ e, s.hupc = .onReceive e)) ∧
    (t.txcb ≠ s.txcb → move = .host ∧ (s.hupc = .attach ∨ ∃ e, s.hupc = .onTransmit e)) ∧
    (t.drv ≠ s.drv → move = .host ∧ ∃ p, s.hupc = .init p .i0 ∨ s.hupc = .init p .i25) ∧
    (t.pinsReady ≠ s.pinsReady → move = .host ∧ s.hupc = .resetPins .s6) ∧
    (t.rst ≠ s.rst → move = .host ∧ (s.hupc = .resetPins .s2 ∨ s.hupc = .resetPins .s4)) ∧
    (t.txDone ≠ s.txDone →
      (move = .host ∧ (s.hupc = .attach ∨ ∃ src dst n, s.hupc = .sendPacket src dst n .s2)) ∨
      (move = .irq ∧ s.iupc = .isrTx .d1)) ∧
    (t.pcnt ≠ s.pcnt →
      (move = .host ∧ ∃ src dst n, s.hupc = .sendPacket src dst n .s14) ∨
      (move = .tick ∧ ∃ src dst n, s.hupc = .sendPacket src dst n .s15 ∨ s.hupc = .sendPacket src dst n .s15Await)) ∧
    (t.slot ≠ s.slot →
      (move = .host ∧ (s.hupc = .attach ∨ s.hupc = .readPacket)) ∨ (move = .irq ∧ ∃ r, s.iupc = .isrRx (.c5 r))) ∧
    (t.lock ≠ s.lock →
      (move = .host ∧ ∃ src dst n, s.hupc = .sendPacket src dst n .s3 ∨ s.hupc = .sendPacket src dst n .s13) ∨
      (move = .irq ∧ (s.iupc = .isrRx .r1 ∨ s.iupc = .isrRx .r9 ∨ (∃ v, s.iupc = .isrRx (.r11 v)) ∨
        s.iupc = .isrTx .t1 ∨ s.iupc = .isrTx .t6 ∨ ∃ v, s.iupc = .isrTx (.t8 v)))) ∧
    (t.armed ≠ s.armed →
      (move = .host ∧ ((∃ p, s.hupc = .init p .i0) ∨ s.hupc = .endPacket .e1 ∨
        (∃ src dst n, s.hupc = .sendPacket src dst n .s10) ∨ ∃ size, s.hupc = .receive size .v4)) ∨
      (move = .irq ∧ (s.iupc = .isrTx .t5 ∨ s.iupc = .isrRx (.c6 .v4) ∨ s.iupc = .isrTx (.d2 .v4)))) ∧
    (t.hdr ≠ s.hdr →
      (move = .host ∧ ((∃ p, s.hupc = .init p .i0 ∨ s.hupc = .init p .i12) ∨ (∃ size, s.hupc = .receive size .v1) ∨
        ∃ e, s.hupc = .implicitHeader e .h1)) ∨
      (move = .irq ∧ (s.iupc = .isrRx (.c6 .v1) ∨ s.iupc = .isrTx (.d2 .v1)))) ∧
    (t.mode ≠ s.mode →
      (move = .host ∧ ∃ b, hostModeStep s.cfg s.hupc = some (t.mode, b)) ∨
      (move = .irq ∧ ∃ b, irqModeStep s.cfg s.iupc = some (t.mode, b))) ∧
    (t.pendRx ≠ s.pendRx →
      (t.pendRx = true ∧ s.armed = .rxDone ∧
        (move = .edge ∨ move = .txComplete ∨ ∃ bytes crc r q, move = .rxPacket bytes crc r q)) ∨
      (t.pendRx = false ∧ ∃ txFirst, move = .dispatch txFirst ∧ t.iupc = .isrRx .r1) ∨
      (t.pendRx = false ∧ move = .host ∧ ∃ p, s.hupc = .init p .i0)) ∧
    (t.pendTx ≠ s.pendTx →
      (t.pendTx = true ∧ s.armed = .txDone ∧
        (move = .edge ∨ move = .txComplete ∨ ∃ bytes crc r q, move = .rxPacket bytes crc r q)) ∨
      (t.pendTx = false ∧ ∃ txFirst, move = .dispatch txFirst ∧ t.iupc = .isrTx .t1) ∨
      (t.pendTx = false ∧ move = .host ∧ ∃ p, s.hupc = .init p .i0)) ∧
    (t.cs ≠ s.cs → t.cs = .high ∧
      ((move = .host ∧ s.hupc = .resetPins .s1) ∨
        ((move = .host ∨ move = .irq) ∧ transferCount t.out = transferCount s.out + 1)))

/-- R318: from any state of the invariant, a service that need not wait for the lock ends within 274 of its own steps and
makes at most 266 transfers. -/
def Obligations.ServiceIsBounded : Prop :=
  ∀ s : State, Inv s → s.iupc ≠ .idle → s.lock ≠ .heldByHost →
    ∃ k, k ≤ 274 ∧ (runTurns (List.replicate k .irq) s).iupc = .idle ∧
      transferCount (runTurns (List.replicate k .irq) s).out ≤ transferCount s.out + 266
end

