-- ==== Sys2Proof/Laws/Encoding.lean ====
section
/-! SUPPORT. The pieces of the encoding (spec/30_encoding.md R102, R106, R107): splitting a value into bytes and joining
them again, which command an opcode names, boolean bytes, and the address byte of a transfer. -/

namespace Sys2Proof

/-! ### Splitting and joining -/

/-- The two bytes of a 16-bit value join to it (R63, R102). -/
@[simp] theorem join_bytes16 (v : BitVec 16) : v.extractLsb' 8 8 ++ v.extractLsb' 0 8 = v := by
  rw [BitVec.extractLsb'_append_extractLsb'_eq_extractLsb' (by rfl)]
  exact BitVec.extractLsb'_eq_self

/-- The three bytes of a 24-bit value join to it (R63, R181). -/
@[simp] theorem join_bytes24 (v : BitVec 24) :
    v.extractLsb' 16 8 ++ v.extractLsb' 8 8 ++ v.extractLsb' 0 8 = v := by
  rw [BitVec.extractLsb'_append_extractLsb'_eq_extractLsb' (by rfl),
    BitVec.extractLsb'_append_extractLsb'_eq_extractLsb' (by rfl)]
  exact BitVec.extractLsb'_eq_self

/-- The four bytes of a 32-bit value join to it (R102). -/
@[simp] theorem join_bytes32 (v : BitVec 32) :
    v.extractLsb' 24 8 ++ v.extractLsb' 16 8 ++ v.extractLsb' 8 8 ++ v.extractLsb' 0 8 = v := by
  rw [BitVec.extractLsb'_append_extractLsb'_eq_extractLsb' (by rfl),
    BitVec.extractLsb'_append_extractLsb'_eq_extractLsb' (by rfl),
    BitVec.extractLsb'_append_extractLsb'_eq_extractLsb' (by rfl)]
  exact BitVec.extractLsb'_eq_self

/-- Joining two bytes and splitting gives them back. -/
theorem bytes16_join16 (b1 b0 : Byte) : bytes16 (join16 b1 b0) = [b1, b0] := by
  have h1 : (b1 ++ b0).extractLsb' 8 8 = b1 := by
    ext i hi
    rw [BitVec.getElem_extractLsb', BitVec.getLsbD_append, if_neg (by omega), Nat.add_sub_cancel_left,
      BitVec.getLsbD_eq_getElem hi]
  have h0 : (b1 ++ b0).extractLsb' 0 8 = b0 := by
    ext i hi
    rw [BitVec.getElem_extractLsb', BitVec.getLsbD_append, Nat.zero_add, if_pos hi, BitVec.getLsbD_eq_getElem hi]
  simp only [bytes16, join16, h1, h0]

/-- Joining four bytes and splitting gives them back. -/
theorem bytes32_join32 (b3 b2 b1 b0 : Byte) : bytes32 (join32 b3 b2 b1 b0) = [b3, b2, b1, b0] := by
  have h : ∀ (k : Nat) (b : Byte), (∀ i, i < 8 → (b3 ++ b2 ++ b1 ++ b0).getLsbD (k + i) = b.getLsbD i) →
      (b3 ++ b2 ++ b1 ++ b0).extractLsb' k 8 = b := fun k b hb => by
    ext i hi
    rw [BitVec.getElem_extractLsb', hb i hi, BitVec.getLsbD_eq_getElem hi]
  have h3 := h 24 b3 fun i hi => by
    rw [BitVec.getLsbD_append, if_neg (by omega), BitVec.getLsbD_append, if_neg (by omega), BitVec.getLsbD_append,
      if_neg (by omega)]
    congr 1; omega
  have h2 := h 16 b2 fun i hi => by
    rw [BitVec.getLsbD_append, if_neg (by omega), BitVec.getLsbD_append, if_neg (by omega), BitVec.getLsbD_append,
      if_pos (by omega)]
    congr 1; omega
  have h1 := h 8 b1 fun i hi => by
    rw [BitVec.getLsbD_append, if_neg (by omega), BitVec.getLsbD_append, if_pos (by omega)]
    congr 1; omega
  have h0 := h 0 b0 fun i hi => by
    rw [BitVec.getLsbD_append, if_pos (by omega), Nat.zero_add]
  simp only [bytes32, join32, h3, h2, h1, h0]

/-! ### Opcodes -/

/-- The opcodes in the order of R101 are the codes of the commands. -/
theorem OpcodeMap.toList_eq (m : OpcodeMap) : m.toList = commands.map m.code := rfl

/-- Every command is in the table. -/
theorem mem_commands (k : Command) : k ∈ commands := by cases k <;> decide

/-- What an opcode names has that opcode. -/
theorem code_of_commandOf {m : OpcodeMap} {op : Byte} {k : Command} (h : commandOf m op = some k) : m.code k = op := by
  simpa using List.find?_some h

/-- An opcode names a command exactly if it is one of the 23 (R118). -/
theorem commandOf_eq_none {m : OpcodeMap} {op : Byte} : commandOf m op = none ↔ op ∉ m.toList := by
  rw [m.toList_eq, commandOf, List.find?_eq_none]
  simp only [beq_iff_eq, List.mem_map, not_exists, not_and]

/-- Pairwise distinct opcodes belong to different commands. -/
theorem OpcodeMap.code_inj {m : OpcodeMap} (h : m.distinct = true) {j k : Command} (he : m.code j = m.code k) : j = k := by
  have hn : (commands.map m.code).Nodup := of_decide_eq_true h
  exact List.inj_on_of_nodup_map hn (mem_commands j) (mem_commands k) he

/-- A command's opcode names it, where the opcodes are pairwise distinct. -/
theorem commandOf_code {m : OpcodeMap} (h : m.distinct = true) (k : Command) : commandOf m (m.code k) = some k := by
  cases hc : commandOf m (m.code k) with
  | none =>
    rw [commandOf_eq_none, m.toList_eq] at hc
    exact absurd (List.mem_map_of_mem (mem_commands k)) hc
  | some j => rw [m.code_inj h (code_of_commandOf hc)]

/-- An admitted configuration has pairwise distinct opcodes (log 10). -/
theorem Config.opcodes_distinct {c : Config} (h : c.admitted = true) : c.opcodes.distinct = true := by
  simp only [Config.admitted, Bool.and_eq_true] at h
  exact h.1.1.1.1.1.2

/-- A command's message decodes by the format of its operands. -/
theorem decodeCommand_code {m : OpcodeMap} (h : m.distinct = true) (k : Command) (args : List Byte) :
    decodeCommand m (m.code k :: args) = decodeOperands (m.code k) k args := by
  simp only [decodeCommand, commandOf_code h]

/-! ### Boolean bytes -/

/-- A boolean's byte decodes to it. -/
@[simp] theorem decodeBool_boolByte (b : Bool) : decodeBool (boolByte b) = .ok b := by cases b <;> rfl

/-- A byte that decodes to a boolean is that boolean's byte. -/
theorem boolByte_of_decodeBool {b : Byte} {e : Bool} (h : decodeBool b = .ok e) : boolByte e = b := by
  unfold decodeBool at h
  split at h
  · cases h; symm; assumption
  · split at h
    · cases h; symm; assumption
    · cases h

/-! ### The address byte -/

/-- The direction bit of a read frame is 0 (R106). -/
@[simp] theorem readAddressByte_dir (a : RegNum) : (readAddressByte a)[7] = false := by
  revert a; decide

/-- The register field of a read frame. -/
@[simp] theorem readAddressByte_reg (a : RegNum) : (readAddressByte a).extractLsb' 0 7 = a := by
  revert a; decide

/-- The direction bit of a write frame is 1 (R106). -/
@[simp] theorem writeAddressByte_dir (a : RegNum) : (writeAddressByte a)[7] = true := by
  revert a; decide

/-- The register field of a write frame. -/
@[simp] theorem writeAddressByte_reg (a : RegNum) : (writeAddressByte a).extractLsb' 0 7 = a := by
  revert a; decide

end Sys2Proof
end

