-- ==== Sys2Proof/Laws/Memory.lean ====
section
/-! SUPPORT. Laws of the reference target's memory: reading after writing, and that every memory operation keeps the
canonical form. -/

namespace Sys2Proof.Machine

/-- An address below a memory's first address reads 0x00. -/
theorem Memory.read_of_lt {m : Memory} {lo a : Nat} (h : Memory.wfFrom lo m = true) (ha : a < lo) :
    m.read a = 0#8 := by
  induction m generalizing lo with
  | nil => rfl
  | cons c rest ih =>
    obtain ⟨b, w⟩ := c
    simp only [Memory.wfFrom, Bool.and_eq_true, decide_eq_true_eq] at h
    have hb : a ≠ b := by omega
    simp only [Memory.read, hb, if_false]
    exact ih h.2 (by omega)

/-- The canonical form from a bound holds from every smaller bound. -/
theorem Memory.wfFrom_mono {m : Memory} {lo lo' : Nat} (h : Memory.wfFrom lo m = true) (hle : lo' ≤ lo) :
    Memory.wfFrom lo' m = true := by
  cases m with
  | nil => rfl
  | cons c rest =>
    obtain ⟨b, w⟩ := c
    simp only [Memory.wfFrom, Bool.and_eq_true, decide_eq_true_eq] at h ⊢
    exact ⟨⟨by omega, h.1.2⟩, h.2⟩

/-- Writing keeps the canonical form from any bound at or below the address. -/
theorem Memory.wfFrom_write {m : Memory} {lo a : Nat} {v : Byte} (h : Memory.wfFrom lo m = true)
    (ha : lo ≤ a) : Memory.wfFrom lo (m.write a v) = true := by
  induction m generalizing lo with
  | nil =>
    by_cases hv : v = 0#8 <;> simp [Memory.write, Memory.wfFrom, hv, ha]
  | cons c rest ih =>
    obtain ⟨b, w⟩ := c
    simp only [Memory.wfFrom, Bool.and_eq_true, decide_eq_true_eq, bne_iff_ne, ne_eq] at h
    obtain ⟨⟨hb, hw⟩, hr⟩ := h
    rcases Nat.lt_trichotomy a b with hab | hab | hab
    · have hab' : a + 1 ≤ b := hab
      by_cases hv : v = 0#8 <;> simp [Memory.write, Memory.wfFrom, hab, hab', hv, ha, hb, hw, hr]
    · subst hab
      by_cases hv : v = 0#8
      · simpa [Memory.write, hv] using Memory.wfFrom_mono hr (by omega)
      · simp [Memory.write, Memory.wfFrom, hv, ha, hr]
    · have h1 : ¬ a < b := by omega
      have h2 : a ≠ b := by omega
      simp only [Memory.write, h1, h2, if_false, Memory.wfFrom, Bool.and_eq_true, decide_eq_true_eq,
        bne_iff_ne, ne_eq]
      exact ⟨⟨hb, hw⟩, ih hr (by omega)⟩

/-- Writing one byte keeps the canonical form. -/
theorem Memory.wf_write {m : Memory} (a : Nat) (v : Byte) (h : m.wf = true) : (m.write a v).wf = true :=
  Memory.wfFrom_write h (Nat.zero_le a)

/-- Reading after a write, from any bound. -/
theorem Memory.read_write_from {m : Memory} {lo a : Nat} {v : Byte} (h : Memory.wfFrom lo m = true)
    (b : Nat) : (m.write a v).read b = if b = a then v else m.read b := by
  induction m generalizing lo with
  | nil =>
    by_cases hv : v = 0#8 <;> by_cases hb : b = a <;> simp [Memory.write, Memory.read, hv, hb]
  | cons c rest ih =>
    obtain ⟨d, w⟩ := c
    simp only [Memory.wfFrom, Bool.and_eq_true, decide_eq_true_eq, bne_iff_ne, ne_eq] at h
    obtain ⟨⟨hd, hw⟩, hr⟩ := h
    rcases Nat.lt_trichotomy a d with hab | hab | hab
    · by_cases hv : v = 0#8
      · simp only [Memory.write, hab, hv, if_true]
        by_cases hb : b = a
        · subst hb
          have hne : b ≠ d := by omega
          simp only [Memory.read, hne, if_false, if_true]
          exact Memory.read_of_lt hr (by omega)
        · simp [hb]
      · simp only [Memory.write, hab, hv, if_true, if_false]
        by_cases hb : b = a <;> simp [Memory.read, hb]
    · subst hab
      by_cases hv : v = 0#8
      · simp only [Memory.write, hv, lt_irrefl, if_false, if_true]
        by_cases hb : b = a
        · subst hb
          simpa using Memory.read_of_lt hr (Nat.lt_succ_self b)
        · simp [Memory.read, hb]
      · simp only [Memory.write, hv, lt_irrefl, if_false, if_true]
        by_cases hb : b = a <;> simp [Memory.read, hb]
    · have h1 : ¬ a < d := by omega
      have h2 : a ≠ d := by omega
      simp only [Memory.write, h1, h2, if_false, Memory.read]
      by_cases hbd : b = d
      · have : b ≠ a := by omega
        simp [hbd]
        intro h3; omega
      · simp only [hbd, if_false]
        exact ih hr

/-- Reading after a write (R82, R83): the written address gives the value, every other address is as before. -/
theorem Memory.read_write {m : Memory} (h : m.wf = true) (a : Nat) (v : Byte) (b : Nat) :
    (m.write a v).read b = if b = a then v else m.read b := Memory.read_write_from h b

/-- Writing a list of registers keeps the canonical form. -/
theorem writeRegs_wf {m : Memory} (l : List (RegNum × Byte)) (h : m.wf = true) :
    (writeRegs m l).wf = true := by
  induction l generalizing m with
  | nil => exact h
  | cons c rest ih => exact ih (Memory.wf_write _ _ h)

/-- Storing a packet's bytes keeps the canonical form. -/
theorem writeFifo_wf {m : Memory} (p : Byte) (l : List Byte) (h : m.wf = true) :
    (writeFifo m p l).wf = true := by
  induction l generalizing m p with
  | nil => exact h
  | cons b rest ih => exact ih _ (Memory.wf_write _ _ h)

/-- Target reset leaves a canonical memory. -/
theorem resetTarget_wf (r : RegMap) {e : Env} (h : e.tmem.wf = true) : (resetTarget r e).tmem.wf = true := by
  unfold resetTarget
  cases e.kind with
  | arbitrary => exact h
  | reference => exact writeRegs_wf _ rfl

/-- A write leaves a canonical memory. -/
theorem memAfterWrite_wf (r : RegMap) (a : RegNum) (v : Byte) {e : Env} (h : e.tmem.wf = true) :
    (memAfterWrite r e a v).wf = true := by
  unfold memAfterWrite advancePointer
  split
  · exact Memory.wf_write _ _ (Memory.wf_write _ _ h)
  · split
    · exact Memory.wf_write _ _ h
    · split
      · exact h
      · exact Memory.wf_write _ _ h

/-! ### A draw touches nothing but the draws -/

@[simp] theorem afterDraw_tmem (e : Env) : (afterDraw e).tmem = e.tmem := by unfold afterDraw; split <;> rfl
@[simp] theorem afterDraw_kind (e : Env) : (afterDraw e).kind = e.kind := by unfold afterDraw; split <;> rfl
@[simp] theorem afterDraw_script (e : Env) : (afterDraw e).script = e.script := by unfold afterDraw; split <;> rfl
@[simp] theorem afterDraw_turns (e : Env) : (afterDraw e).turns = e.turns := by unfold afterDraw; split <;> rfl

/-! ### A transfer touches neither the kind of target nor the moves -/

section
variable (r : RegMap) (rst : Pin) (e : Env) (a : RegNum) (v : Byte)

@[simp] theorem targetAfterRead_kind : (targetAfterRead r rst e a).kind = e.kind := by
  unfold targetAfterRead; split <;> (try split) <;> simp
@[simp] theorem targetAfterRead_script : (targetAfterRead r rst e a).script = e.script := by
  unfold targetAfterRead; split <;> (try split) <;> simp
@[simp] theorem targetAfterRead_turns : (targetAfterRead r rst e a).turns = e.turns := by
  unfold targetAfterRead; split <;> (try split) <;> simp
@[simp] theorem targetAfterWrite_kind : (targetAfterWrite r rst e a v).kind = e.kind := by
  unfold targetAfterWrite; split <;> simp
@[simp] theorem targetAfterWrite_script : (targetAfterWrite r rst e a v).script = e.script := by
  unfold targetAfterWrite; split <;> simp
@[simp] theorem targetAfterWrite_turns : (targetAfterWrite r rst e a v).turns = e.turns := by
  unfold targetAfterWrite; split <;> simp
@[simp] theorem targetLive_afterRead : targetLive rst (targetAfterRead r rst e a) = targetLive rst e := by
  simp [targetLive]
@[simp] theorem targetLive_afterWrite : targetLive rst (targetAfterWrite r rst e a v) = targetLive rst e := by
  simp [targetLive]
end

/-! ### The memory after a transfer -/

/-- The target after a read has a canonical memory. -/
theorem targetAfterRead_wf (r : RegMap) (rst : Pin) (a : RegNum) {e : Env} (h : e.tmem.wf = true) :
    (targetAfterRead r rst e a).tmem.wf = true := by
  unfold targetAfterRead advancePointer
  split
  · split
    · exact Memory.wf_write _ _ h
    · exact h
  · simpa using h

/-- The target after a write has a canonical memory. -/
theorem targetAfterWrite_wf (r : RegMap) (rst : Pin) (a : RegNum) (v : Byte) {e : Env}
    (h : e.tmem.wf = true) : (targetAfterWrite r rst e a v).tmem.wf = true := by
  unfold targetAfterWrite
  split
  · exact memAfterWrite_wf r a v h
  · simpa using h

/-- A read transfer of any register but the FIFO port leaves every byte of the target as it is (R82). -/
theorem targetAfterRead_tmem {r : RegMap} {rst : Pin} {e : Env} {a : RegNum} (h : a ≠ r.fifo) :
    (targetAfterRead r rst e a).tmem = e.tmem := by
  unfold targetAfterRead; split <;> simp

/-- A write transfer leaves every byte of the target as it is but the register's own, for a register that is not the FIFO
port (R83). -/
theorem targetAfterWrite_frame {r : RegMap} {rst : Pin} {e : Env} {a : RegNum} {v : Byte}
    (hwf : e.tmem.wf = true) (h : a ≠ r.fifo) {b : Nat} (hb : b ≠ regAddress a) :
    (targetAfterWrite r rst e a v).tmem.read b = e.tmem.read b := by
  unfold targetAfterWrite memAfterWrite
  split
  · split
    · rw [Memory.read_write hwf, if_neg hb]
    · split
      · rfl
      · rw [Memory.read_write hwf, if_neg hb]
  · simp

/-- What a write transfer stores in the reference target, for a register that is plain storage (R83). -/
theorem targetAfterWrite_stores {r : RegMap} {rst : Pin} {e : Env} {a : RegNum} {v : Byte}
    (hwf : e.tmem.wf = true) (hlive : targetLive rst e = true) (h : a ≠ r.fifo) (hi : a ≠ r.irqFlags)
    (hr : readOnlyReg r a = false) : (targetAfterWrite r rst e a v).tmem.read (regAddress a) = v := by
  simp [targetAfterWrite, memAfterWrite, hlive, h, hi, hr, Memory.read_write hwf]

/-- A read transfer of a register other than the FIFO port captures its byte (R82). -/
theorem targetByte_live {r : RegMap} {rst : Pin} {e : Env} {a : RegNum} (hlive : targetLive rst e = true)
    (h : a ≠ r.fifo) : targetByte r rst e a = targetReg e a := by
  simp [targetByte, hlive, h]

end Sys2Proof.Machine
end

