-- ==== Sys2Proof/Laws/PerInstr.lean ====
section
/-! SUPPORT. A statement about every instruction as syntax, made per constructor. -/

namespace Sys2Proof.Laws

/-- A well-formed instruction is 1 to 259 bytes long, and a transfer frame is exactly two (R100, R106). -/
def EncodedLength.Statement (i : Instr) : Prop :=
  i.wellFormed = true →
    ∀ m : OpcodeMap, 1 ≤ (encode m i).length ∧ (encode m i).length ≤ 259 ∧
      (i.port = .spi → (encode m i).length = 2)

theorem EncodedLength.resetPins : EncodedLength.Statement .resetPins := by
  intro _ _
  simp [encode, Instr.port]

theorem EncodedLength.spiRd (a : RegNum) : EncodedLength.Statement (.spiRd a) := by
  intro _ _
  simp [encode]

theorem EncodedLength.spiWr (a : RegNum) (v : Byte) : EncodedLength.Statement (.spiWr a v) := by
  intro _ _
  simp [encode]

theorem EncodedLength.init (p : RadioParameters) : EncodedLength.Statement (.init p) := by
  intro _ _
  simp [encode, Instr.port, bytes16, bytes32]

theorem EncodedLength.beginPacket : EncodedLength.Statement .beginPacket := by
  intro _ _
  simp [encode, Instr.port]

theorem EncodedLength.write (data : List Byte) : EncodedLength.Statement (.write data) := by
  intro h _
  simp only [Instr.wellFormed, decide_eq_true_eq] at h
  simp [encode, Instr.port]
  omega

theorem EncodedLength.endPacket : EncodedLength.Statement .endPacket := by
  intro _ _
  simp [encode, Instr.port]

theorem EncodedLength.receive (size : Byte) : EncodedLength.Statement (.receive size) := by
  intro _ _
  simp [encode, Instr.port]

theorem EncodedLength.onReceive (enable : Bool) : EncodedLength.Statement (.onReceive enable) := by
  intro _ _
  simp [encode, Instr.port]

theorem EncodedLength.onTransmit (enable : Bool) : EncodedLength.Statement (.onTransmit enable) := by
  intro _ _
  simp [encode, Instr.port]

theorem EncodedLength.setFrequency (frequency : Hz) : EncodedLength.Statement (.setFrequency frequency) := by
  intro _ _
  simp [encode, Instr.port, bytes32]

theorem EncodedLength.setBandwidth (bandwidth : Hz) : EncodedLength.Statement (.setBandwidth bandwidth) := by
  intro _ _
  simp [encode, Instr.port, bytes32]

theorem EncodedLength.setSf (sf : Byte) : EncodedLength.Statement (.setSf sf) := by
  intro _ _
  simp [encode, Instr.port]

theorem EncodedLength.setCr (denominator : Byte) : EncodedLength.Statement (.setCr denominator) := by
  intro _ _
  simp [encode, Instr.port]

theorem EncodedLength.setPreamble (len : BitVec 16) : EncodedLength.Statement (.setPreamble len) := by
  intro _ _
  simp [encode, Instr.port, bytes16]

theorem EncodedLength.setSync (sync : Byte) : EncodedLength.Statement (.setSync sync) := by
  intro _ _
  simp [encode, Instr.port]

theorem EncodedLength.enableCrc (enable : Bool) : EncodedLength.Statement (.enableCrc enable) := by
  intro _ _
  simp [encode, Instr.port]

theorem EncodedLength.implicitHeader (implicit : Bool) : EncodedLength.Statement (.implicitHeader implicit) := by
  intro _ _
  simp [encode, Instr.port]

theorem EncodedLength.setTxPower (level : Byte) : EncodedLength.Statement (.setTxPower level) := by
  intro _ _
  simp [encode, Instr.port]

theorem EncodedLength.packetRssi : EncodedLength.Statement .packetRssi := by
  intro _ _
  simp [encode, Instr.port]

theorem EncodedLength.packetSnr : EncodedLength.Statement .packetSnr := by
  intro _ _
  simp [encode, Instr.port]

theorem EncodedLength.attach : EncodedLength.Statement .attach := by
  intro _ _
  simp [encode, Instr.port]

theorem EncodedLength.sendPacket (src : Byte) (dst : Byte) (payload : List Byte) : EncodedLength.Statement (.sendPacket src dst payload) := by
  intro h _
  simp only [Instr.wellFormed, decide_eq_true_eq] at h
  simp [encode, Instr.port]
  omega

theorem EncodedLength.isPacketAvailable : EncodedLength.Statement .isPacketAvailable := by
  intro _ _
  simp [encode, Instr.port]

theorem EncodedLength.readPacket : EncodedLength.Statement .readPacket := by
  intro _ _
  simp [encode, Instr.port]

end Sys2Proof.Laws
end

