-- ==== Sys2Proof/Laws/State.lean ====
section
/-! SUPPORT. One lemma per field for every shared operation that updates the state, true by unfolding, so that no later
proof unfolds a record update. -/

namespace Sys2Proof.Machine

/-! ### respond -/

@[simp] theorem respond_cfg (v : Status) (l : List Byte) (s : State) : (respond v l s).cfg = s.cfg := rfl
@[simp] theorem respond_hupc (v : Status) (l : List Byte) (s : State) : (respond v l s).hupc = .idle := rfl
@[simp] theorem respond_iupc (v : Status) (l : List Byte) (s : State) : (respond v l s).iupc = s.iupc := rfl
@[simp] theorem respond_hctx (v : Status) (l : List Byte) (s : State) : (respond v l s).hctx = s.hctx := rfl
@[simp] theorem respond_ictx (v : Status) (l : List Byte) (s : State) : (respond v l s).ictx = s.ictx := rfl
@[simp] theorem respond_txb (v : Status) (l : List Byte) (s : State) : (respond v l s).txb = s.txb := rfl
@[simp] theorem respond_rxbuf (v : Status) (l : List Byte) (s : State) : (respond v l s).rxbuf = s.rxbuf := rfl
@[simp] theorem respond_txDone (v : Status) (l : List Byte) (s : State) : (respond v l s).txDone = s.txDone := rfl
@[simp] theorem respond_mode (v : Status) (l : List Byte) (s : State) : (respond v l s).mode = s.mode := rfl
@[simp] theorem respond_lock (v : Status) (l : List Byte) (s : State) : (respond v l s).lock = s.lock := rfl
@[simp] theorem respond_hdr (v : Status) (l : List Byte) (s : State) : (respond v l s).hdr = s.hdr := rfl
@[simp] theorem respond_freq (v : Status) (l : List Byte) (s : State) : (respond v l s).freq = s.freq := rfl
@[simp] theorem respond_armed (v : Status) (l : List Byte) (s : State) : (respond v l s).armed = s.armed := rfl
@[simp] theorem respond_rxcb (v : Status) (l : List Byte) (s : State) : (respond v l s).rxcb = s.rxcb := rfl
@[simp] theorem respond_txcb (v : Status) (l : List Byte) (s : State) : (respond v l s).txcb = s.txcb := rfl
@[simp] theorem respond_drv (v : Status) (l : List Byte) (s : State) : (respond v l s).drv = s.drv := rfl
@[simp] theorem respond_pinsReady (v : Status) (l : List Byte) (s : State) : (respond v l s).pinsReady = s.pinsReady := rfl
@[simp] theorem respond_seq (v : Status) (l : List Byte) (s : State) : (respond v l s).seq = s.seq := rfl
@[simp] theorem respond_pcnt (v : Status) (l : List Byte) (s : State) : (respond v l s).pcnt = s.pcnt := rfl
@[simp] theorem respond_cs (v : Status) (l : List Byte) (s : State) : (respond v l s).cs = s.cs := rfl
@[simp] theorem respond_rst (v : Status) (l : List Byte) (s : State) : (respond v l s).rst = s.rst := rfl
@[simp] theorem respond_slot (v : Status) (l : List Byte) (s : State) : (respond v l s).slot = s.slot := rfl
@[simp] theorem respond_pendRx (v : Status) (l : List Byte) (s : State) : (respond v l s).pendRx = s.pendRx := rfl
@[simp] theorem respond_pendTx (v : Status) (l : List Byte) (s : State) : (respond v l s).pendTx = s.pendTx := rfl
@[simp] theorem respond_spiFrame (v : Status) (l : List Byte) (s : State) : (respond v l s).spiFrame = s.spiFrame := rfl
@[simp] theorem respond_env (v : Status) (l : List Byte) (s : State) : (respond v l s).env = s.env := rfl
@[simp] theorem respond_out (v : Status) (l : List Byte) (s : State) :
    (respond v l s).out = .response (statusCode s.cfg.statuses v :: l) :: s.out := rfl

/-! ### emitDiag -/

@[simp] theorem emitDiag_cfg (v : Status) (r d : Byte) (s : State) : (emitDiag v r d s).cfg = s.cfg := rfl
@[simp] theorem emitDiag_hupc (v : Status) (r d : Byte) (s : State) : (emitDiag v r d s).hupc = s.hupc := rfl
@[simp] theorem emitDiag_iupc (v : Status) (r d : Byte) (s : State) : (emitDiag v r d s).iupc = s.iupc := rfl
@[simp] theorem emitDiag_hctx (v : Status) (r d : Byte) (s : State) : (emitDiag v r d s).hctx = s.hctx := rfl
@[simp] theorem emitDiag_ictx (v : Status) (r d : Byte) (s : State) : (emitDiag v r d s).ictx = s.ictx := rfl
@[simp] theorem emitDiag_txb (v : Status) (r d : Byte) (s : State) : (emitDiag v r d s).txb = s.txb := rfl
@[simp] theorem emitDiag_rxbuf (v : Status) (r d : Byte) (s : State) : (emitDiag v r d s).rxbuf = s.rxbuf := rfl
@[simp] theorem emitDiag_txDone (v : Status) (r d : Byte) (s : State) : (emitDiag v r d s).txDone = s.txDone := rfl
@[simp] theorem emitDiag_mode (v : Status) (r d : Byte) (s : State) : (emitDiag v r d s).mode = s.mode := rfl
@[simp] theorem emitDiag_lock (v : Status) (r d : Byte) (s : State) : (emitDiag v r d s).lock = s.lock := rfl
@[simp] theorem emitDiag_hdr (v : Status) (r d : Byte) (s : State) : (emitDiag v r d s).hdr = s.hdr := rfl
@[simp] theorem emitDiag_freq (v : Status) (r d : Byte) (s : State) : (emitDiag v r d s).freq = s.freq := rfl
@[simp] theorem emitDiag_armed (v : Status) (r d : Byte) (s : State) : (emitDiag v r d s).armed = s.armed := rfl
@[simp] theorem emitDiag_rxcb (v : Status) (r d : Byte) (s : State) : (emitDiag v r d s).rxcb = s.rxcb := rfl
@[simp] theorem emitDiag_txcb (v : Status) (r d : Byte) (s : State) : (emitDiag v r d s).txcb = s.txcb := rfl
@[simp] theorem emitDiag_drv (v : Status) (r d : Byte) (s : State) : (emitDiag v r d s).drv = s.drv := rfl
@[simp] theorem emitDiag_pinsReady (v : Status) (r d : Byte) (s : State) : (emitDiag v r d s).pinsReady = s.pinsReady := rfl
@[simp] theorem emitDiag_seq (v : Status) (r d : Byte) (s : State) : (emitDiag v r d s).seq = s.seq := rfl
@[simp] theorem emitDiag_pcnt (v : Status) (r d : Byte) (s : State) : (emitDiag v r d s).pcnt = s.pcnt := rfl
@[simp] theorem emitDiag_cs (v : Status) (r d : Byte) (s : State) : (emitDiag v r d s).cs = s.cs := rfl
@[simp] theorem emitDiag_rst (v : Status) (r d : Byte) (s : State) : (emitDiag v r d s).rst = s.rst := rfl
@[simp] theorem emitDiag_slot (v : Status) (r d : Byte) (s : State) : (emitDiag v r d s).slot = s.slot := rfl
@[simp] theorem emitDiag_pendRx (v : Status) (r d : Byte) (s : State) : (emitDiag v r d s).pendRx = s.pendRx := rfl
@[simp] theorem emitDiag_pendTx (v : Status) (r d : Byte) (s : State) : (emitDiag v r d s).pendTx = s.pendTx := rfl
@[simp] theorem emitDiag_spiFrame (v : Status) (r d : Byte) (s : State) : (emitDiag v r d s).spiFrame = s.spiFrame := rfl
@[simp] theorem emitDiag_env (v : Status) (r d : Byte) (s : State) : (emitDiag v r d s).env = s.env := rfl
@[simp] theorem emitDiag_out (v : Status) (r d : Byte) (s : State) :
    (emitDiag v r d s).out = .diag { code := statusCode s.cfg.statuses v, reason := r, data := d } :: s.out := rfl

/-! ### raiseHost -/

@[simp] theorem raiseHost_cfg (v : Status) (d : Byte) (s : State) : (raiseHost v d s).cfg = s.cfg := rfl
@[simp] theorem raiseHost_hupc (v : Status) (d : Byte) (s : State) : (raiseHost v d s).hupc = .idle := rfl
@[simp] theorem raiseHost_iupc (v : Status) (d : Byte) (s : State) : (raiseHost v d s).iupc = s.iupc := rfl
@[simp] theorem raiseHost_hctx (v : Status) (d : Byte) (s : State) : (raiseHost v d s).hctx = s.hctx := rfl
@[simp] theorem raiseHost_ictx (v : Status) (d : Byte) (s : State) : (raiseHost v d s).ictx = s.ictx := rfl
@[simp] theorem raiseHost_txb (v : Status) (d : Byte) (s : State) : (raiseHost v d s).txb = s.txb := rfl
@[simp] theorem raiseHost_rxbuf (v : Status) (d : Byte) (s : State) : (raiseHost v d s).rxbuf = s.rxbuf := rfl
@[simp] theorem raiseHost_txDone (v : Status) (d : Byte) (s : State) : (raiseHost v d s).txDone = s.txDone := rfl
@[simp] theorem raiseHost_mode (v : Status) (d : Byte) (s : State) : (raiseHost v d s).mode = s.mode := rfl
@[simp] theorem raiseHost_lock (v : Status) (d : Byte) (s : State) : (raiseHost v d s).lock = s.lock := rfl
@[simp] theorem raiseHost_hdr (v : Status) (d : Byte) (s : State) : (raiseHost v d s).hdr = s.hdr := rfl
@[simp] theorem raiseHost_freq (v : Status) (d : Byte) (s : State) : (raiseHost v d s).freq = s.freq := rfl
@[simp] theorem raiseHost_armed (v : Status) (d : Byte) (s : State) : (raiseHost v d s).armed = s.armed := rfl
@[simp] theorem raiseHost_rxcb (v : Status) (d : Byte) (s : State) : (raiseHost v d s).rxcb = s.rxcb := rfl
@[simp] theorem raiseHost_txcb (v : Status) (d : Byte) (s : State) : (raiseHost v d s).txcb = s.txcb := rfl
@[simp] theorem raiseHost_drv (v : Status) (d : Byte) (s : State) : (raiseHost v d s).drv = s.drv := rfl
@[simp] theorem raiseHost_pinsReady (v : Status) (d : Byte) (s : State) : (raiseHost v d s).pinsReady = s.pinsReady := rfl
@[simp] theorem raiseHost_seq (v : Status) (d : Byte) (s : State) : (raiseHost v d s).seq = s.seq := rfl
@[simp] theorem raiseHost_pcnt (v : Status) (d : Byte) (s : State) : (raiseHost v d s).pcnt = s.pcnt := rfl
@[simp] theorem raiseHost_cs (v : Status) (d : Byte) (s : State) : (raiseHost v d s).cs = s.cs := rfl
@[simp] theorem raiseHost_rst (v : Status) (d : Byte) (s : State) : (raiseHost v d s).rst = s.rst := rfl
@[simp] theorem raiseHost_slot (v : Status) (d : Byte) (s : State) : (raiseHost v d s).slot = s.slot := rfl
@[simp] theorem raiseHost_pendRx (v : Status) (d : Byte) (s : State) : (raiseHost v d s).pendRx = s.pendRx := rfl
@[simp] theorem raiseHost_pendTx (v : Status) (d : Byte) (s : State) : (raiseHost v d s).pendTx = s.pendTx := rfl
@[simp] theorem raiseHost_spiFrame (v : Status) (d : Byte) (s : State) : (raiseHost v d s).spiFrame = s.spiFrame := rfl
@[simp] theorem raiseHost_env (v : Status) (d : Byte) (s : State) : (raiseHost v d s).env = s.env := rfl
@[simp] theorem raiseHost_out (v : Status) (d : Byte) (s : State) :
    (raiseHost v d s).out = .response [statusCode s.cfg.statuses v] :: .diag { code := statusCode s.cfg.statuses v, reason := 0x00, data := d } :: s.out := rfl

/-! ### readTransfer -/

@[simp] theorem readTransfer_cfg (c : Ctx) (a : RegNum) (s : State) : (readTransfer c a s).cfg = s.cfg := rfl
@[simp] theorem readTransfer_hupc (c : Ctx) (a : RegNum) (s : State) : (readTransfer c a s).hupc = s.hupc := rfl
@[simp] theorem readTransfer_iupc (c : Ctx) (a : RegNum) (s : State) : (readTransfer c a s).iupc = s.iupc := rfl
@[simp] theorem readTransfer_hctx (c : Ctx) (a : RegNum) (s : State) : (readTransfer c a s).hctx = s.hctx := rfl
@[simp] theorem readTransfer_ictx (c : Ctx) (a : RegNum) (s : State) : (readTransfer c a s).ictx = s.ictx := rfl
@[simp] theorem readTransfer_txb (c : Ctx) (a : RegNum) (s : State) : (readTransfer c a s).txb = s.txb := rfl
@[simp] theorem readTransfer_rxbuf (c : Ctx) (a : RegNum) (s : State) : (readTransfer c a s).rxbuf = s.rxbuf := rfl
@[simp] theorem readTransfer_txDone (c : Ctx) (a : RegNum) (s : State) : (readTransfer c a s).txDone = s.txDone := rfl
@[simp] theorem readTransfer_mode (c : Ctx) (a : RegNum) (s : State) : (readTransfer c a s).mode = s.mode := rfl
@[simp] theorem readTransfer_lock (c : Ctx) (a : RegNum) (s : State) : (readTransfer c a s).lock = s.lock := rfl
@[simp] theorem readTransfer_hdr (c : Ctx) (a : RegNum) (s : State) : (readTransfer c a s).hdr = s.hdr := rfl
@[simp] theorem readTransfer_freq (c : Ctx) (a : RegNum) (s : State) : (readTransfer c a s).freq = s.freq := rfl
@[simp] theorem readTransfer_armed (c : Ctx) (a : RegNum) (s : State) : (readTransfer c a s).armed = s.armed := rfl
@[simp] theorem readTransfer_rxcb (c : Ctx) (a : RegNum) (s : State) : (readTransfer c a s).rxcb = s.rxcb := rfl
@[simp] theorem readTransfer_txcb (c : Ctx) (a : RegNum) (s : State) : (readTransfer c a s).txcb = s.txcb := rfl
@[simp] theorem readTransfer_drv (c : Ctx) (a : RegNum) (s : State) : (readTransfer c a s).drv = s.drv := rfl
@[simp] theorem readTransfer_pinsReady (c : Ctx) (a : RegNum) (s : State) : (readTransfer c a s).pinsReady = s.pinsReady := rfl
@[simp] theorem readTransfer_seq (c : Ctx) (a : RegNum) (s : State) : (readTransfer c a s).seq = s.seq := rfl
@[simp] theorem readTransfer_pcnt (c : Ctx) (a : RegNum) (s : State) : (readTransfer c a s).pcnt = s.pcnt := rfl
@[simp] theorem readTransfer_cs (c : Ctx) (a : RegNum) (s : State) : (readTransfer c a s).cs = .high := rfl
@[simp] theorem readTransfer_rst (c : Ctx) (a : RegNum) (s : State) : (readTransfer c a s).rst = s.rst := rfl
@[simp] theorem readTransfer_slot (c : Ctx) (a : RegNum) (s : State) : (readTransfer c a s).slot = s.slot := rfl
@[simp] theorem readTransfer_pendRx (c : Ctx) (a : RegNum) (s : State) : (readTransfer c a s).pendRx = s.pendRx := rfl
@[simp] theorem readTransfer_pendTx (c : Ctx) (a : RegNum) (s : State) : (readTransfer c a s).pendTx = s.pendTx := rfl
@[simp] theorem readTransfer_spiFrame (c : Ctx) (a : RegNum) (s : State) : (readTransfer c a s).spiFrame = s.spiFrame := rfl
@[simp] theorem readTransfer_env (c : Ctx) (a : RegNum) (s : State) : (readTransfer c a s).env = envAfterRead a s := rfl
@[simp] theorem readTransfer_out (c : Ctx) (a : RegNum) (s : State) :
    (readTransfer c a s).out = .transfer { ctx := c, dir := .rd, reg := a, sent := 0x00, captured := captured a s } :: s.out := rfl

/-! ### writeTransfer -/

@[simp] theorem writeTransfer_cfg (c : Ctx) (a : RegNum) (v : Byte) (s : State) : (writeTransfer c a v s).cfg = s.cfg := rfl
@[simp] theorem writeTransfer_hupc (c : Ctx) (a : RegNum) (v : Byte) (s : State) : (writeTransfer c a v s).hupc = s.hupc := rfl
@[simp] theorem writeTransfer_iupc (c : Ctx) (a : RegNum) (v : Byte) (s : State) : (writeTransfer c a v s).iupc = s.iupc := rfl
@[simp] theorem writeTransfer_hctx (c : Ctx) (a : RegNum) (v : Byte) (s : State) : (writeTransfer c a v s).hctx = s.hctx := rfl
@[simp] theorem writeTransfer_ictx (c : Ctx) (a : RegNum) (v : Byte) (s : State) : (writeTransfer c a v s).ictx = s.ictx := rfl
@[simp] theorem writeTransfer_txb (c : Ctx) (a : RegNum) (v : Byte) (s : State) : (writeTransfer c a v s).txb = s.txb := rfl
@[simp] theorem writeTransfer_rxbuf (c : Ctx) (a : RegNum) (v : Byte) (s : State) : (writeTransfer c a v s).rxbuf = s.rxbuf := rfl
@[simp] theorem writeTransfer_txDone (c : Ctx) (a : RegNum) (v : Byte) (s : State) : (writeTransfer c a v s).txDone = s.txDone := rfl
@[simp] theorem writeTransfer_mode (c : Ctx) (a : RegNum) (v : Byte) (s : State) : (writeTransfer c a v s).mode = s.mode := rfl
@[simp] theorem writeTransfer_lock (c : Ctx) (a : RegNum) (v : Byte) (s : State) : (writeTransfer c a v s).lock = s.lock := rfl
@[simp] theorem writeTransfer_hdr (c : Ctx) (a : RegNum) (v : Byte) (s : State) : (writeTransfer c a v s).hdr = s.hdr := rfl
@[simp] theorem writeTransfer_freq (c : Ctx) (a : RegNum) (v : Byte) (s : State) : (writeTransfer c a v s).freq = s.freq := rfl
@[simp] theorem writeTransfer_armed (c : Ctx) (a : RegNum) (v : Byte) (s : State) : (writeTransfer c a v s).armed = s.armed := rfl
@[simp] theorem writeTransfer_rxcb (c : Ctx) (a : RegNum) (v : Byte) (s : State) : (writeTransfer c a v s).rxcb = s.rxcb := rfl
@[simp] theorem writeTransfer_txcb (c : Ctx) (a : RegNum) (v : Byte) (s : State) : (writeTransfer c a v s).txcb = s.txcb := rfl
@[simp] theorem writeTransfer_drv (c : Ctx) (a : RegNum) (v : Byte) (s : State) : (writeTransfer c a v s).drv = s.drv := rfl
@[simp] theorem writeTransfer_pinsReady (c : Ctx) (a : RegNum) (v : Byte) (s : State) : (writeTransfer c a v s).pinsReady = s.pinsReady := rfl
@[simp] theorem writeTransfer_seq (c : Ctx) (a : RegNum) (v : Byte) (s : State) : (writeTransfer c a v s).seq = s.seq := rfl
@[simp] theorem writeTransfer_pcnt (c : Ctx) (a : RegNum) (v : Byte) (s : State) : (writeTransfer c a v s).pcnt = s.pcnt := rfl
@[simp] theorem writeTransfer_cs (c : Ctx) (a : RegNum) (v : Byte) (s : State) : (writeTransfer c a v s).cs = .high := rfl
@[simp] theorem writeTransfer_rst (c : Ctx) (a : RegNum) (v : Byte) (s : State) : (writeTransfer c a v s).rst = s.rst := rfl
@[simp] theorem writeTransfer_slot (c : Ctx) (a : RegNum) (v : Byte) (s : State) : (writeTransfer c a v s).slot = s.slot := rfl
@[simp] theorem writeTransfer_pendRx (c : Ctx) (a : RegNum) (v : Byte) (s : State) : (writeTransfer c a v s).pendRx = s.pendRx := rfl
@[simp] theorem writeTransfer_pendTx (c : Ctx) (a : RegNum) (v : Byte) (s : State) : (writeTransfer c a v s).pendTx = s.pendTx := rfl
@[simp] theorem writeTransfer_spiFrame (c : Ctx) (a : RegNum) (v : Byte) (s : State) : (writeTransfer c a v s).spiFrame = s.spiFrame := rfl
@[simp] theorem writeTransfer_env (c : Ctx) (a : RegNum) (v : Byte) (s : State) : (writeTransfer c a v s).env = envAfterWrite a v s := rfl
@[simp] theorem writeTransfer_out (c : Ctx) (a : RegNum) (v : Byte) (s : State) :
    (writeTransfer c a v s).out = .transfer { ctx := c, dir := .wr, reg := a, sent := v, captured := captured a s } :: s.out := rfl

/-! ### hostRead -/

@[simp] theorem hostRead_cfg (a : RegNum) (s : State) : (hostRead a s).cfg = s.cfg := rfl
@[simp] theorem hostRead_hupc (a : RegNum) (s : State) : (hostRead a s).hupc = s.hupc := rfl
@[simp] theorem hostRead_iupc (a : RegNum) (s : State) : (hostRead a s).iupc = s.iupc := rfl
@[simp] theorem hostRead_hctx (a : RegNum) (s : State) :
    (hostRead a s).hctx = { s.hctx with t := captured a s } := rfl
@[simp] theorem hostRead_ictx (a : RegNum) (s : State) : (hostRead a s).ictx = s.ictx := rfl
@[simp] theorem hostRead_txb (a : RegNum) (s : State) : (hostRead a s).txb = s.txb := rfl
@[simp] theorem hostRead_rxbuf (a : RegNum) (s : State) : (hostRead a s).rxbuf = s.rxbuf := rfl
@[simp] theorem hostRead_txDone (a : RegNum) (s : State) : (hostRead a s).txDone = s.txDone := rfl
@[simp] theorem hostRead_mode (a : RegNum) (s : State) : (hostRead a s).mode = s.mode := rfl
@[simp] theorem hostRead_lock (a : RegNum) (s : State) : (hostRead a s).lock = s.lock := rfl
@[simp] theorem hostRead_hdr (a : RegNum) (s : State) : (hostRead a s).hdr = s.hdr := rfl
@[simp] theorem hostRead_freq (a : RegNum) (s : State) : (hostRead a s).freq = s.freq := rfl
@[simp] theorem hostRead_armed (a : RegNum) (s : State) : (hostRead a s).armed = s.armed := rfl
@[simp] theorem hostRead_rxcb (a : RegNum) (s : State) : (hostRead a s).rxcb = s.rxcb := rfl
@[simp] theorem hostRead_txcb (a : RegNum) (s : State) : (hostRead a s).txcb = s.txcb := rfl
@[simp] theorem hostRead_drv (a : RegNum) (s : State) : (hostRead a s).drv = s.drv := rfl
@[simp] theorem hostRead_pinsReady (a : RegNum) (s : State) : (hostRead a s).pinsReady = s.pinsReady := rfl
@[simp] theorem hostRead_seq (a : RegNum) (s : State) : (hostRead a s).seq = s.seq := rfl
@[simp] theorem hostRead_pcnt (a : RegNum) (s : State) : (hostRead a s).pcnt = s.pcnt := rfl
@[simp] theorem hostRead_cs (a : RegNum) (s : State) : (hostRead a s).cs = .high := rfl
@[simp] theorem hostRead_rst (a : RegNum) (s : State) : (hostRead a s).rst = s.rst := rfl
@[simp] theorem hostRead_slot (a : RegNum) (s : State) : (hostRead a s).slot = s.slot := rfl
@[simp] theorem hostRead_pendRx (a : RegNum) (s : State) : (hostRead a s).pendRx = s.pendRx := rfl
@[simp] theorem hostRead_pendTx (a : RegNum) (s : State) : (hostRead a s).pendTx = s.pendTx := rfl
@[simp] theorem hostRead_spiFrame (a : RegNum) (s : State) : (hostRead a s).spiFrame = s.spiFrame := rfl
@[simp] theorem hostRead_env (a : RegNum) (s : State) : (hostRead a s).env = envAfterRead a s := rfl
@[simp] theorem hostRead_out (a : RegNum) (s : State) :
    (hostRead a s).out = .transfer { ctx := .hctx, dir := .rd, reg := a, sent := 0x00, captured := captured a s } :: s.out := rfl

/-! ### hostWrite -/

@[simp] theorem hostWrite_cfg (a : RegNum) (v : Byte) (s : State) : (hostWrite a v s).cfg = s.cfg := rfl
@[simp] theorem hostWrite_hupc (a : RegNum) (v : Byte) (s : State) : (hostWrite a v s).hupc = s.hupc := rfl
@[simp] theorem hostWrite_iupc (a : RegNum) (v : Byte) (s : State) : (hostWrite a v s).iupc = s.iupc := rfl
@[simp] theorem hostWrite_hctx (a : RegNum) (v : Byte) (s : State) : (hostWrite a v s).hctx = s.hctx := rfl
@[simp] theorem hostWrite_ictx (a : RegNum) (v : Byte) (s : State) : (hostWrite a v s).ictx = s.ictx := rfl
@[simp] theorem hostWrite_txb (a : RegNum) (v : Byte) (s : State) : (hostWrite a v s).txb = s.txb := rfl
@[simp] theorem hostWrite_rxbuf (a : RegNum) (v : Byte) (s : State) : (hostWrite a v s).rxbuf = s.rxbuf := rfl
@[simp] theorem hostWrite_txDone (a : RegNum) (v : Byte) (s : State) : (hostWrite a v s).txDone = s.txDone := rfl
@[simp] theorem hostWrite_mode (a : RegNum) (v : Byte) (s : State) : (hostWrite a v s).mode = s.mode := rfl
@[simp] theorem hostWrite_lock (a : RegNum) (v : Byte) (s : State) : (hostWrite a v s).lock = s.lock := rfl
@[simp] theorem hostWrite_hdr (a : RegNum) (v : Byte) (s : State) : (hostWrite a v s).hdr = s.hdr := rfl
@[simp] theorem hostWrite_freq (a : RegNum) (v : Byte) (s : State) : (hostWrite a v s).freq = s.freq := rfl
@[simp] theorem hostWrite_armed (a : RegNum) (v : Byte) (s : State) : (hostWrite a v s).armed = s.armed := rfl
@[simp] theorem hostWrite_rxcb (a : RegNum) (v : Byte) (s : State) : (hostWrite a v s).rxcb = s.rxcb := rfl
@[simp] theorem hostWrite_txcb (a : RegNum) (v : Byte) (s : State) : (hostWrite a v s).txcb = s.txcb := rfl
@[simp] theorem hostWrite_drv (a : RegNum) (v : Byte) (s : State) : (hostWrite a v s).drv = s.drv := rfl
@[simp] theorem hostWrite_pinsReady (a : RegNum) (v : Byte) (s : State) : (hostWrite a v s).pinsReady = s.pinsReady := rfl
@[simp] theorem hostWrite_seq (a : RegNum) (v : Byte) (s : State) : (hostWrite a v s).seq = s.seq := rfl
@[simp] theorem hostWrite_pcnt (a : RegNum) (v : Byte) (s : State) : (hostWrite a v s).pcnt = s.pcnt := rfl
@[simp] theorem hostWrite_cs (a : RegNum) (v : Byte) (s : State) : (hostWrite a v s).cs = .high := rfl
@[simp] theorem hostWrite_rst (a : RegNum) (v : Byte) (s : State) : (hostWrite a v s).rst = s.rst := rfl
@[simp] theorem hostWrite_slot (a : RegNum) (v : Byte) (s : State) : (hostWrite a v s).slot = s.slot := rfl
@[simp] theorem hostWrite_pendRx (a : RegNum) (v : Byte) (s : State) : (hostWrite a v s).pendRx = s.pendRx := rfl
@[simp] theorem hostWrite_pendTx (a : RegNum) (v : Byte) (s : State) : (hostWrite a v s).pendTx = s.pendTx := rfl
@[simp] theorem hostWrite_spiFrame (a : RegNum) (v : Byte) (s : State) : (hostWrite a v s).spiFrame = s.spiFrame := rfl
@[simp] theorem hostWrite_env (a : RegNum) (v : Byte) (s : State) : (hostWrite a v s).env = envAfterWrite a v s := rfl
@[simp] theorem hostWrite_out (a : RegNum) (v : Byte) (s : State) :
    (hostWrite a v s).out = .transfer { ctx := .hctx, dir := .wr, reg := a, sent := v, captured := captured a s } :: s.out := rfl

/-! ### irqRead -/

@[simp] theorem irqRead_cfg (a : RegNum) (s : State) : (irqRead a s).cfg = s.cfg := rfl
@[simp] theorem irqRead_hupc (a : RegNum) (s : State) : (irqRead a s).hupc = s.hupc := rfl
@[simp] theorem irqRead_iupc (a : RegNum) (s : State) : (irqRead a s).iupc = s.iupc := rfl
@[simp] theorem irqRead_hctx (a : RegNum) (s : State) : (irqRead a s).hctx = s.hctx := rfl
@[simp] theorem irqRead_ictx (a : RegNum) (s : State) :
    (irqRead a s).ictx = { s.ictx with it := captured a s } := rfl
@[simp] theorem irqRead_txb (a : RegNum) (s : State) : (irqRead a s).txb = s.txb := rfl
@[simp] theorem irqRead_rxbuf (a : RegNum) (s : State) : (irqRead a s).rxbuf = s.rxbuf := rfl
@[simp] theorem irqRead_txDone (a : RegNum) (s : State) : (irqRead a s).txDone = s.txDone := rfl
@[simp] theorem irqRead_mode (a : RegNum) (s : State) : (irqRead a s).mode = s.mode := rfl
@[simp] theorem irqRead_lock (a : RegNum) (s : State) : (irqRead a s).lock = s.lock := rfl
@[simp] theorem irqRead_hdr (a : RegNum) (s : State) : (irqRead a s).hdr = s.hdr := rfl
@[simp] theorem irqRead_freq (a : RegNum) (s : State) : (irqRead a s).freq = s.freq := rfl
@[simp] theorem irqRead_armed (a : RegNum) (s : State) : (irqRead a s).armed = s.armed := rfl
@[simp] theorem irqRead_rxcb (a : RegNum) (s : State) : (irqRead a s).rxcb = s.rxcb := rfl
@[simp] theorem irqRead_txcb (a : RegNum) (s : State) : (irqRead a s).txcb = s.txcb := rfl
@[simp] theorem irqRead_drv (a : RegNum) (s : State) : (irqRead a s).drv = s.drv := rfl
@[simp] theorem irqRead_pinsReady (a : RegNum) (s : State) : (irqRead a s).pinsReady = s.pinsReady := rfl
@[simp] theorem irqRead_seq (a : RegNum) (s : State) : (irqRead a s).seq = s.seq := rfl
@[simp] theorem irqRead_pcnt (a : RegNum) (s : State) : (irqRead a s).pcnt = s.pcnt := rfl
@[simp] theorem irqRead_cs (a : RegNum) (s : State) : (irqRead a s).cs = .high := rfl
@[simp] theorem irqRead_rst (a : RegNum) (s : State) : (irqRead a s).rst = s.rst := rfl
@[simp] theorem irqRead_slot (a : RegNum) (s : State) : (irqRead a s).slot = s.slot := rfl
@[simp] theorem irqRead_pendRx (a : RegNum) (s : State) : (irqRead a s).pendRx = s.pendRx := rfl
@[simp] theorem irqRead_pendTx (a : RegNum) (s : State) : (irqRead a s).pendTx = s.pendTx := rfl
@[simp] theorem irqRead_spiFrame (a : RegNum) (s : State) : (irqRead a s).spiFrame = s.spiFrame := rfl
@[simp] theorem irqRead_env (a : RegNum) (s : State) : (irqRead a s).env = envAfterRead a s := rfl
@[simp] theorem irqRead_out (a : RegNum) (s : State) :
    (irqRead a s).out = .transfer { ctx := .ictx, dir := .rd, reg := a, sent := 0x00, captured := captured a s } :: s.out := rfl

/-! ### irqWrite -/

@[simp] theorem irqWrite_cfg (a : RegNum) (v : Byte) (s : State) : (irqWrite a v s).cfg = s.cfg := rfl
@[simp] theorem irqWrite_hupc (a : RegNum) (v : Byte) (s : State) : (irqWrite a v s).hupc = s.hupc := rfl
@[simp] theorem irqWrite_iupc (a : RegNum) (v : Byte) (s : State) : (irqWrite a v s).iupc = s.iupc := rfl
@[simp] theorem irqWrite_hctx (a : RegNum) (v : Byte) (s : State) : (irqWrite a v s).hctx = s.hctx := rfl
@[simp] theorem irqWrite_ictx (a : RegNum) (v : Byte) (s : State) : (irqWrite a v s).ictx = s.ictx := rfl
@[simp] theorem irqWrite_txb (a : RegNum) (v : Byte) (s : State) : (irqWrite a v s).txb = s.txb := rfl
@[simp] theorem irqWrite_rxbuf (a : RegNum) (v : Byte) (s : State) : (irqWrite a v s).rxbuf = s.rxbuf := rfl
@[simp] theorem irqWrite_txDone (a : RegNum) (v : Byte) (s : State) : (irqWrite a v s).txDone = s.txDone := rfl
@[simp] theorem irqWrite_mode (a : RegNum) (v : Byte) (s : State) : (irqWrite a v s).mode = s.mode := rfl
@[simp] theorem irqWrite_lock (a : RegNum) (v : Byte) (s : State) : (irqWrite a v s).lock = s.lock := rfl
@[simp] theorem irqWrite_hdr (a : RegNum) (v : Byte) (s : State) : (irqWrite a v s).hdr = s.hdr := rfl
@[simp] theorem irqWrite_freq (a : RegNum) (v : Byte) (s : State) : (irqWrite a v s).freq = s.freq := rfl
@[simp] theorem irqWrite_armed (a : RegNum) (v : Byte) (s : State) : (irqWrite a v s).armed = s.armed := rfl
@[simp] theorem irqWrite_rxcb (a : RegNum) (v : Byte) (s : State) : (irqWrite a v s).rxcb = s.rxcb := rfl
@[simp] theorem irqWrite_txcb (a : RegNum) (v : Byte) (s : State) : (irqWrite a v s).txcb = s.txcb := rfl
@[simp] theorem irqWrite_drv (a : RegNum) (v : Byte) (s : State) : (irqWrite a v s).drv = s.drv := rfl
@[simp] theorem irqWrite_pinsReady (a : RegNum) (v : Byte) (s : State) : (irqWrite a v s).pinsReady = s.pinsReady := rfl
@[simp] theorem irqWrite_seq (a : RegNum) (v : Byte) (s : State) : (irqWrite a v s).seq = s.seq := rfl
@[simp] theorem irqWrite_pcnt (a : RegNum) (v : Byte) (s : State) : (irqWrite a v s).pcnt = s.pcnt := rfl
@[simp] theorem irqWrite_cs (a : RegNum) (v : Byte) (s : State) : (irqWrite a v s).cs = .high := rfl
@[simp] theorem irqWrite_rst (a : RegNum) (v : Byte) (s : State) : (irqWrite a v s).rst = s.rst := rfl
@[simp] theorem irqWrite_slot (a : RegNum) (v : Byte) (s : State) : (irqWrite a v s).slot = s.slot := rfl
@[simp] theorem irqWrite_pendRx (a : RegNum) (v : Byte) (s : State) : (irqWrite a v s).pendRx = s.pendRx := rfl
@[simp] theorem irqWrite_pendTx (a : RegNum) (v : Byte) (s : State) : (irqWrite a v s).pendTx = s.pendTx := rfl
@[simp] theorem irqWrite_spiFrame (a : RegNum) (v : Byte) (s : State) : (irqWrite a v s).spiFrame = s.spiFrame := rfl
@[simp] theorem irqWrite_env (a : RegNum) (v : Byte) (s : State) : (irqWrite a v s).env = envAfterWrite a v s := rfl
@[simp] theorem irqWrite_out (a : RegNum) (v : Byte) (s : State) :
    (irqWrite a v s).out = .transfer { ctx := .ictx, dir := .wr, reg := a, sent := v, captured := captured a s } :: s.out := rfl

/-! ### releaseLock -/

@[simp] theorem releaseLock_cfg (s : State) : (releaseLock s).cfg = s.cfg := rfl
@[simp] theorem releaseLock_hupc (s : State) : (releaseLock s).hupc = s.hupc := rfl
@[simp] theorem releaseLock_iupc (s : State) : (releaseLock s).iupc = s.iupc := rfl
@[simp] theorem releaseLock_hctx (s : State) : (releaseLock s).hctx = s.hctx := rfl
@[simp] theorem releaseLock_ictx (s : State) : (releaseLock s).ictx = s.ictx := rfl
@[simp] theorem releaseLock_txb (s : State) : (releaseLock s).txb = s.txb := rfl
@[simp] theorem releaseLock_rxbuf (s : State) : (releaseLock s).rxbuf = s.rxbuf := rfl
@[simp] theorem releaseLock_txDone (s : State) : (releaseLock s).txDone = s.txDone := rfl
@[simp] theorem releaseLock_mode (s : State) : (releaseLock s).mode = s.mode := rfl
@[simp] theorem releaseLock_lock (s : State) : (releaseLock s).lock = .free := rfl
@[simp] theorem releaseLock_hdr (s : State) : (releaseLock s).hdr = s.hdr := rfl
@[simp] theorem releaseLock_freq (s : State) : (releaseLock s).freq = s.freq := rfl
@[simp] theorem releaseLock_armed (s : State) : (releaseLock s).armed = s.armed := rfl
@[simp] theorem releaseLock_rxcb (s : State) : (releaseLock s).rxcb = s.rxcb := rfl
@[simp] theorem releaseLock_txcb (s : State) : (releaseLock s).txcb = s.txcb := rfl
@[simp] theorem releaseLock_drv (s : State) : (releaseLock s).drv = s.drv := rfl
@[simp] theorem releaseLock_pinsReady (s : State) : (releaseLock s).pinsReady = s.pinsReady := rfl
@[simp] theorem releaseLock_seq (s : State) : (releaseLock s).seq = s.seq := rfl
@[simp] theorem releaseLock_pcnt (s : State) : (releaseLock s).pcnt = s.pcnt := rfl
@[simp] theorem releaseLock_cs (s : State) : (releaseLock s).cs = s.cs := rfl
@[simp] theorem releaseLock_rst (s : State) : (releaseLock s).rst = s.rst := rfl
@[simp] theorem releaseLock_slot (s : State) : (releaseLock s).slot = s.slot := rfl
@[simp] theorem releaseLock_pendRx (s : State) : (releaseLock s).pendRx = s.pendRx := rfl
@[simp] theorem releaseLock_pendTx (s : State) : (releaseLock s).pendTx = s.pendTx := rfl
@[simp] theorem releaseLock_spiFrame (s : State) : (releaseLock s).spiFrame = s.spiFrame := rfl
@[simp] theorem releaseLock_env (s : State) : (releaseLock s).env = s.env := rfl
@[simp] theorem releaseLock_out (s : State) : (releaseLock s).out = s.out := rfl

/-! ### endService -/

@[simp] theorem endService_cfg (s : State) : (endService s).cfg = s.cfg := rfl
@[simp] theorem endService_hupc (s : State) : (endService s).hupc = s.hupc := rfl
@[simp] theorem endService_iupc (s : State) : (endService s).iupc = .idle := rfl
@[simp] theorem endService_hctx (s : State) : (endService s).hctx = s.hctx := rfl
@[simp] theorem endService_ictx (s : State) : (endService s).ictx = s.ictx := rfl
@[simp] theorem endService_txb (s : State) : (endService s).txb = s.txb := rfl
@[simp] theorem endService_rxbuf (s : State) : (endService s).rxbuf = s.rxbuf := rfl
@[simp] theorem endService_txDone (s : State) : (endService s).txDone = s.txDone := rfl
@[simp] theorem endService_mode (s : State) : (endService s).mode = s.mode := rfl
@[simp] theorem endService_lock (s : State) : (endService s).lock = s.lock := rfl
@[simp] theorem endService_hdr (s : State) : (endService s).hdr = s.hdr := rfl
@[simp] theorem endService_freq (s : State) : (endService s).freq = s.freq := rfl
@[simp] theorem endService_armed (s : State) : (endService s).armed = s.armed := rfl
@[simp] theorem endService_rxcb (s : State) : (endService s).rxcb = s.rxcb := rfl
@[simp] theorem endService_txcb (s : State) : (endService s).txcb = s.txcb := rfl
@[simp] theorem endService_drv (s : State) : (endService s).drv = s.drv := rfl
@[simp] theorem endService_pinsReady (s : State) : (endService s).pinsReady = s.pinsReady := rfl
@[simp] theorem endService_seq (s : State) : (endService s).seq = s.seq := rfl
@[simp] theorem endService_pcnt (s : State) : (endService s).pcnt = s.pcnt := rfl
@[simp] theorem endService_cs (s : State) : (endService s).cs = s.cs := rfl
@[simp] theorem endService_rst (s : State) : (endService s).rst = s.rst := rfl
@[simp] theorem endService_slot (s : State) : (endService s).slot = s.slot := rfl
@[simp] theorem endService_pendRx (s : State) : (endService s).pendRx = s.pendRx := rfl
@[simp] theorem endService_pendTx (s : State) : (endService s).pendTx = s.pendTx := rfl
@[simp] theorem endService_spiFrame (s : State) : (endService s).spiFrame = s.spiFrame := rfl
@[simp] theorem endService_env (s : State) : (endService s).env = s.env := rfl
@[simp] theorem endService_out (s : State) : (endService s).out = s.out := rfl

/-! ### setScript -/

@[simp] theorem setScript_cfg (l : List Turn) (s : State) : (setScript l s).cfg = s.cfg := rfl
@[simp] theorem setScript_hupc (l : List Turn) (s : State) : (setScript l s).hupc = s.hupc := rfl
@[simp] theorem setScript_iupc (l : List Turn) (s : State) : (setScript l s).iupc = s.iupc := rfl
@[simp] theorem setScript_hctx (l : List Turn) (s : State) : (setScript l s).hctx = s.hctx := rfl
@[simp] theorem setScript_ictx (l : List Turn) (s : State) : (setScript l s).ictx = s.ictx := rfl
@[simp] theorem setScript_txb (l : List Turn) (s : State) : (setScript l s).txb = s.txb := rfl
@[simp] theorem setScript_rxbuf (l : List Turn) (s : State) : (setScript l s).rxbuf = s.rxbuf := rfl
@[simp] theorem setScript_txDone (l : List Turn) (s : State) : (setScript l s).txDone = s.txDone := rfl
@[simp] theorem setScript_mode (l : List Turn) (s : State) : (setScript l s).mode = s.mode := rfl
@[simp] theorem setScript_lock (l : List Turn) (s : State) : (setScript l s).lock = s.lock := rfl
@[simp] theorem setScript_hdr (l : List Turn) (s : State) : (setScript l s).hdr = s.hdr := rfl
@[simp] theorem setScript_freq (l : List Turn) (s : State) : (setScript l s).freq = s.freq := rfl
@[simp] theorem setScript_armed (l : List Turn) (s : State) : (setScript l s).armed = s.armed := rfl
@[simp] theorem setScript_rxcb (l : List Turn) (s : State) : (setScript l s).rxcb = s.rxcb := rfl
@[simp] theorem setScript_txcb (l : List Turn) (s : State) : (setScript l s).txcb = s.txcb := rfl
@[simp] theorem setScript_drv (l : List Turn) (s : State) : (setScript l s).drv = s.drv := rfl
@[simp] theorem setScript_pinsReady (l : List Turn) (s : State) : (setScript l s).pinsReady = s.pinsReady := rfl
@[simp] theorem setScript_seq (l : List Turn) (s : State) : (setScript l s).seq = s.seq := rfl
@[simp] theorem setScript_pcnt (l : List Turn) (s : State) : (setScript l s).pcnt = s.pcnt := rfl
@[simp] theorem setScript_cs (l : List Turn) (s : State) : (setScript l s).cs = s.cs := rfl
@[simp] theorem setScript_rst (l : List Turn) (s : State) : (setScript l s).rst = s.rst := rfl
@[simp] theorem setScript_slot (l : List Turn) (s : State) : (setScript l s).slot = s.slot := rfl
@[simp] theorem setScript_pendRx (l : List Turn) (s : State) : (setScript l s).pendRx = s.pendRx := rfl
@[simp] theorem setScript_pendTx (l : List Turn) (s : State) : (setScript l s).pendTx = s.pendTx := rfl
@[simp] theorem setScript_spiFrame (l : List Turn) (s : State) : (setScript l s).spiFrame = s.spiFrame := rfl
@[simp] theorem setScript_env (l : List Turn) (s : State) :
    (setScript l s).env = { s.env with script := l } := rfl
@[simp] theorem setScript_out (l : List Turn) (s : State) : (setScript l s).out = s.out := rfl

/-! ### driveCs -/

@[simp] theorem driveCs_cfg (p : Pin) (s : State) : (driveCs p s).cfg = s.cfg := rfl
@[simp] theorem driveCs_hupc (p : Pin) (s : State) : (driveCs p s).hupc = s.hupc := rfl
@[simp] theorem driveCs_iupc (p : Pin) (s : State) : (driveCs p s).iupc = s.iupc := rfl
@[simp] theorem driveCs_hctx (p : Pin) (s : State) : (driveCs p s).hctx = s.hctx := rfl
@[simp] theorem driveCs_ictx (p : Pin) (s : State) : (driveCs p s).ictx = s.ictx := rfl
@[simp] theorem driveCs_txb (p : Pin) (s : State) : (driveCs p s).txb = s.txb := rfl
@[simp] theorem driveCs_rxbuf (p : Pin) (s : State) : (driveCs p s).rxbuf = s.rxbuf := rfl
@[simp] theorem driveCs_txDone (p : Pin) (s : State) : (driveCs p s).txDone = s.txDone := rfl
@[simp] theorem driveCs_mode (p : Pin) (s : State) : (driveCs p s).mode = s.mode := rfl
@[simp] theorem driveCs_lock (p : Pin) (s : State) : (driveCs p s).lock = s.lock := rfl
@[simp] theorem driveCs_hdr (p : Pin) (s : State) : (driveCs p s).hdr = s.hdr := rfl
@[simp] theorem driveCs_freq (p : Pin) (s : State) : (driveCs p s).freq = s.freq := rfl
@[simp] theorem driveCs_armed (p : Pin) (s : State) : (driveCs p s).armed = s.armed := rfl
@[simp] theorem driveCs_rxcb (p : Pin) (s : State) : (driveCs p s).rxcb = s.rxcb := rfl
@[simp] theorem driveCs_txcb (p : Pin) (s : State) : (driveCs p s).txcb = s.txcb := rfl
@[simp] theorem driveCs_drv (p : Pin) (s : State) : (driveCs p s).drv = s.drv := rfl
@[simp] theorem driveCs_pinsReady (p : Pin) (s : State) : (driveCs p s).pinsReady = s.pinsReady := rfl
@[simp] theorem driveCs_seq (p : Pin) (s : State) : (driveCs p s).seq = s.seq := rfl
@[simp] theorem driveCs_pcnt (p : Pin) (s : State) : (driveCs p s).pcnt = s.pcnt := rfl
@[simp] theorem driveCs_cs (p : Pin) (s : State) : (driveCs p s).cs = p := rfl
@[simp] theorem driveCs_rst (p : Pin) (s : State) : (driveCs p s).rst = s.rst := rfl
@[simp] theorem driveCs_slot (p : Pin) (s : State) : (driveCs p s).slot = s.slot := rfl
@[simp] theorem driveCs_pendRx (p : Pin) (s : State) : (driveCs p s).pendRx = s.pendRx := rfl
@[simp] theorem driveCs_pendTx (p : Pin) (s : State) : (driveCs p s).pendTx = s.pendTx := rfl
@[simp] theorem driveCs_spiFrame (p : Pin) (s : State) : (driveCs p s).spiFrame = s.spiFrame := rfl
@[simp] theorem driveCs_env (p : Pin) (s : State) : (driveCs p s).env = s.env := rfl
@[simp] theorem driveCs_out (p : Pin) (s : State) : (driveCs p s).out = .csPin p :: s.out := rfl

/-! ### hostMerge: the fields that depend on no captured byte -/

@[simp] theorem hostMerge_cfg (a : RegNum) (m b : Byte) (s : State) : (hostMerge a m b s).cfg = s.cfg := rfl
@[simp] theorem hostMerge_hupc (a : RegNum) (m b : Byte) (s : State) : (hostMerge a m b s).hupc = s.hupc := rfl
@[simp] theorem hostMerge_iupc (a : RegNum) (m b : Byte) (s : State) : (hostMerge a m b s).iupc = s.iupc := rfl
@[simp] theorem hostMerge_ictx (a : RegNum) (m b : Byte) (s : State) : (hostMerge a m b s).ictx = s.ictx := rfl
@[simp] theorem hostMerge_txb (a : RegNum) (m b : Byte) (s : State) : (hostMerge a m b s).txb = s.txb := rfl
@[simp] theorem hostMerge_rxbuf (a : RegNum) (m b : Byte) (s : State) : (hostMerge a m b s).rxbuf = s.rxbuf := rfl
@[simp] theorem hostMerge_txDone (a : RegNum) (m b : Byte) (s : State) : (hostMerge a m b s).txDone = s.txDone := rfl
@[simp] theorem hostMerge_mode (a : RegNum) (m b : Byte) (s : State) : (hostMerge a m b s).mode = s.mode := rfl
@[simp] theorem hostMerge_lock (a : RegNum) (m b : Byte) (s : State) : (hostMerge a m b s).lock = s.lock := rfl
@[simp] theorem hostMerge_hdr (a : RegNum) (m b : Byte) (s : State) : (hostMerge a m b s).hdr = s.hdr := rfl
@[simp] theorem hostMerge_freq (a : RegNum) (m b : Byte) (s : State) : (hostMerge a m b s).freq = s.freq := rfl
@[simp] theorem hostMerge_armed (a : RegNum) (m b : Byte) (s : State) : (hostMerge a m b s).armed = s.armed := rfl
@[simp] theorem hostMerge_rxcb (a : RegNum) (m b : Byte) (s : State) : (hostMerge a m b s).rxcb = s.rxcb := rfl
@[simp] theorem hostMerge_txcb (a : RegNum) (m b : Byte) (s : State) : (hostMerge a m b s).txcb = s.txcb := rfl
@[simp] theorem hostMerge_drv (a : RegNum) (m b : Byte) (s : State) : (hostMerge a m b s).drv = s.drv := rfl
@[simp] theorem hostMerge_pinsReady (a : RegNum) (m b : Byte) (s : State) : (hostMerge a m b s).pinsReady = s.pinsReady := rfl
@[simp] theorem hostMerge_seq (a : RegNum) (m b : Byte) (s : State) : (hostMerge a m b s).seq = s.seq := rfl
@[simp] theorem hostMerge_pcnt (a : RegNum) (m b : Byte) (s : State) : (hostMerge a m b s).pcnt = s.pcnt := rfl
@[simp] theorem hostMerge_rst (a : RegNum) (m b : Byte) (s : State) : (hostMerge a m b s).rst = s.rst := rfl
@[simp] theorem hostMerge_slot (a : RegNum) (m b : Byte) (s : State) : (hostMerge a m b s).slot = s.slot := rfl
@[simp] theorem hostMerge_pendRx (a : RegNum) (m b : Byte) (s : State) : (hostMerge a m b s).pendRx = s.pendRx := rfl
@[simp] theorem hostMerge_pendTx (a : RegNum) (m b : Byte) (s : State) : (hostMerge a m b s).pendTx = s.pendTx := rfl
@[simp] theorem hostMerge_spiFrame (a : RegNum) (m b : Byte) (s : State) : (hostMerge a m b s).spiFrame = s.spiFrame := rfl
@[simp] theorem hostMerge_cs (a : RegNum) (m b : Byte) (s : State) : (hostMerge a m b s).cs = .high := rfl
@[simp] theorem hostMerge_hctx (a : RegNum) (m b : Byte) (s : State) :
    (hostMerge a m b s).hctx = { s.hctx with m := mergeField s.hctx.t m b } := rfl
@[simp] theorem hostMerge_env (a : RegNum) (m b : Byte) (s : State) :
    (hostMerge a m b s).env = envAfterWrite a (mergeField s.hctx.t m b) s := rfl
@[simp] theorem hostMerge_out (a : RegNum) (m b : Byte) (s : State) :
    (hostMerge a m b s).out = .transfer { ctx := .hctx, dir := .wr, reg := a, sent := mergeField s.hctx.t m b, captured := captured a s } :: s.out := rfl

/-! ### irqMerge: the fields that depend on no captured byte -/

@[simp] theorem irqMerge_cfg (a : RegNum) (m b : Byte) (s : State) : (irqMerge a m b s).cfg = s.cfg := rfl
@[simp] theorem irqMerge_hupc (a : RegNum) (m b : Byte) (s : State) : (irqMerge a m b s).hupc = s.hupc := rfl
@[simp] theorem irqMerge_iupc (a : RegNum) (m b : Byte) (s : State) : (irqMerge a m b s).iupc = s.iupc := rfl
@[simp] theorem irqMerge_hctx (a : RegNum) (m b : Byte) (s : State) : (irqMerge a m b s).hctx = s.hctx := rfl
@[simp] theorem irqMerge_txb (a : RegNum) (m b : Byte) (s : State) : (irqMerge a m b s).txb = s.txb := rfl
@[simp] theorem irqMerge_rxbuf (a : RegNum) (m b : Byte) (s : State) : (irqMerge a m b s).rxbuf = s.rxbuf := rfl
@[simp] theorem irqMerge_txDone (a : RegNum) (m b : Byte) (s : State) : (irqMerge a m b s).txDone = s.txDone := rfl
@[simp] theorem irqMerge_mode (a : RegNum) (m b : Byte) (s : State) : (irqMerge a m b s).mode = s.mode := rfl
@[simp] theorem irqMerge_lock (a : RegNum) (m b : Byte) (s : State) : (irqMerge a m b s).lock = s.lock := rfl
@[simp] theorem irqMerge_hdr (a : RegNum) (m b : Byte) (s : State) : (irqMerge a m b s).hdr = s.hdr := rfl
@[simp] theorem irqMerge_freq (a : RegNum) (m b : Byte) (s : State) : (irqMerge a m b s).freq = s.freq := rfl
@[simp] theorem irqMerge_armed (a : RegNum) (m b : Byte) (s : State) : (irqMerge a m b s).armed = s.armed := rfl
@[simp] theorem irqMerge_rxcb (a : RegNum) (m b : Byte) (s : State) : (irqMerge a m b s).rxcb = s.rxcb := rfl
@[simp] theorem irqMerge_txcb (a : RegNum) (m b : Byte) (s : State) : (irqMerge a m b s).txcb = s.txcb := rfl
@[simp] theorem irqMerge_drv (a : RegNum) (m b : Byte) (s : State) : (irqMerge a m b s).drv = s.drv := rfl
@[simp] theorem irqMerge_pinsReady (a : RegNum) (m b : Byte) (s : State) : (irqMerge a m b s).pinsReady = s.pinsReady := rfl
@[simp] theorem irqMerge_seq (a : RegNum) (m b : Byte) (s : State) : (irqMerge a m b s).seq = s.seq := rfl
@[simp] theorem irqMerge_pcnt (a : RegNum) (m b : Byte) (s : State) : (irqMerge a m b s).pcnt = s.pcnt := rfl
@[simp] theorem irqMerge_rst (a : RegNum) (m b : Byte) (s : State) : (irqMerge a m b s).rst = s.rst := rfl
@[simp] theorem irqMerge_slot (a : RegNum) (m b : Byte) (s : State) : (irqMerge a m b s).slot = s.slot := rfl
@[simp] theorem irqMerge_pendRx (a : RegNum) (m b : Byte) (s : State) : (irqMerge a m b s).pendRx = s.pendRx := rfl
@[simp] theorem irqMerge_pendTx (a : RegNum) (m b : Byte) (s : State) : (irqMerge a m b s).pendTx = s.pendTx := rfl
@[simp] theorem irqMerge_spiFrame (a : RegNum) (m b : Byte) (s : State) : (irqMerge a m b s).spiFrame = s.spiFrame := rfl
@[simp] theorem irqMerge_cs (a : RegNum) (m b : Byte) (s : State) : (irqMerge a m b s).cs = .high := rfl
@[simp] theorem irqMerge_ictx (a : RegNum) (m b : Byte) (s : State) :
    (irqMerge a m b s).ictx = { s.ictx with im := mergeField s.ictx.it m b } := rfl
@[simp] theorem irqMerge_env (a : RegNum) (m b : Byte) (s : State) :
    (irqMerge a m b s).env = envAfterWrite a (mergeField s.ictx.it m b) s := rfl
@[simp] theorem irqMerge_out (a : RegNum) (m b : Byte) (s : State) :
    (irqMerge a m b s).out = .transfer { ctx := .ictx, dir := .wr, reg := a, sent := mergeField s.ictx.it m b, captured := captured a s } :: s.out := rfl

end Sys2Proof.Machine
end

