-- ==== Sys2Proof/Laws/Run.lean ====
section
/-! SUPPORT. What running a command, taking a move and one step can do, each said once. -/

namespace Sys2Proof.Machine

/-! ### Who blocks HCTX -/

/-- HCTX is never kept from stepping while ICTX is idle. -/
theorem hostBlocked_of_idle {s : State} (h : s.iupc = .idle) : hostBlocked s = false := by
  simp [hostBlocked, h]

/-- HCTX is never kept from stepping without ICTX_PREEMPTS (R73). -/
theorem hostBlocked_of_free_order {s : State} (h : s.cfg.ictxPreempts = false) : hostBlocked s = false := by
  simp [hostBlocked, h]

/-- Who blocks HCTX is seen from the configuration, IUPC and LOCK alone. -/
theorem hostBlocked_congr {s t : State} (h1 : t.cfg = s.cfg) (h2 : t.iupc = s.iupc) (h3 : t.lock = s.lock) :
    hostBlocked t = hostBlocked s := by
  simp [hostBlocked, h1, h2, h3]

/-! ### Running the moves laid down -/

/-- No move is taken once the response is out. -/
theorem runScript_idle {s : State} (h : s.hupc = .idle) (l : List Turn) : runScript l s = setScript l s := by
  cases l <;> simp [runScript, h]

/-- A move is taken while the command is in progress. -/
theorem runScript_cons {s : State} (h : s.hupc ≠ .idle) (t : Turn) (l : List Turn) :
    runScript (t :: l) s = runScript l (turn t s) := by
  simp only [runScript]

/-- A move of HCTX that is enabled is the step HUPC names. -/
theorem turn_host {s : State} (h : hostBlocked s = false) : turn .host s = hostStep s := by
  simp [turn, h]

/-- A move of HCTX while the command is in progress and ICTX does not block it. -/
theorem runScript_host {s : State} (h : s.hupc ≠ .idle) (hb : hostBlocked s = false) (l : List Turn) :
    runScript (.host :: l) s = runScript l (hostStep s) := by
  rw [runScript_cons h, turn_host hb]

/-- Moves one after the other compose. -/
theorem runTurns_append (l m : List Turn) (s : State) : runTurns (l ++ m) s = runTurns m (runTurns l s) := by
  induction l generalizing s with
  | nil => rfl
  | cons t l ih => exact ih (turn t s)

/-- What running moves leaves of the moves themselves: nothing is left over, or the response is out. -/
theorem runScript_script (l : List Turn) (s : State) :
    (runScript l s).hupc = .idle ∨ (runScript l s).env.script = [] := by
  induction l generalizing s with
  | nil => exact .inr rfl
  | cons t l ih =>
    by_cases h : s.hupc = .idle
    · left; rw [runScript_idle h]; exact h
    · rw [runScript_cons h]; exact ih _

/-! ### Commands -/

/-- An admitted command at a free port is accepted and the moves laid down run. -/
theorem runCommand_admitted {s : State} (h : s.hupc = .idle) (accept : State → State) :
    runCommand none accept s = .next (runScript s.env.script (accept s)) := by
  simp [runCommand, h]

/-- A refused command at a free port is answered with its status alone (R14). -/
theorem runCommand_refused {s : State} (h : s.hupc = .idle) (v : Status) (accept : State → State) :
    runCommand (some v) accept s = .next (respond v [] s) := by
  simp [runCommand, h]

/-- A command at a busy port faults. -/
theorem runCommand_busy {s : State} (h : s.hupc ≠ .idle) (refusal : Option Status) (accept : State → State) :
    runCommand refusal accept s = .fault .commandPortBusy := by
  unfold runCommand
  split
  · contradiction
  · rfl

/-- All a command can answer. -/
theorem runCommand_cases {refusal : Option Status} {accept : State → State} {s t : State}
    (h : runCommand refusal accept s = .next t) :
    s.hupc = .idle ∧
      ((∃ v, refusal = some v ∧ t = respond v [] s) ∨
        (refusal = none ∧ t = runScript s.env.script (accept s))) := by
  by_cases hi : s.hupc = .idle
  · refine ⟨hi, ?_⟩
    cases refusal with
    | some v => rw [runCommand_refused hi] at h; cases h; exact .inl ⟨v, rfl, rfl⟩
    | none => rw [runCommand_admitted hi] at h; cases h; exact .inr ⟨rfl, rfl⟩
  · rw [runCommand_busy hi] at h; cases h

/-- `k` moves of HCTX, none of them blocked and the response out after the last: the state is that after `k` steps of the
command, with the moves left over. -/
theorem runScript_hosts (k : Nat) (rest : List Turn) (s : State)
    (hrun : ∀ j, j < k → (hostStep^[j] s).hupc ≠ .idle ∧ hostBlocked (hostStep^[j] s) = false)
    (hend : (hostStep^[k] s).hupc = .idle) :
    runScript (List.replicate k .host ++ rest) s = setScript rest (hostStep^[k] s) := by
  induction k generalizing s with
  | zero => exact runScript_idle hend rest
  | succ k ih =>
    have h0 : s.hupc ≠ .idle ∧ hostBlocked s = false := hrun 0 (Nat.succ_pos k)
    rw [List.replicate_succ, List.cons_append, runScript_host h0.1 h0.2]
    exact ih _ (fun j hj => hrun (j + 1) (Nat.succ_lt_succ hj)) hend

/-- `k` moves of HCTX, none of them blocked and none of them the last of the command: the moves that follow run from the
state after `k` steps. -/
theorem runScript_hosts_on (k : Nat) (rest : List Turn) (s : State)
    (hrun : ∀ j, j < k → (hostStep^[j] s).hupc ≠ .idle ∧ hostBlocked (hostStep^[j] s) = false) :
    runScript (List.replicate k .host ++ rest) s = runScript rest (hostStep^[k] s) := by
  induction k generalizing s with
  | zero => rfl
  | succ k ih =>
    have h0 : s.hupc ≠ .idle ∧ hostBlocked s = false := hrun 0 (Nat.succ_pos k)
    rw [List.replicate_succ, List.cons_append, runScript_host h0.1 h0.2]
    exact ih _ (fun j hj => hrun (j + 1) (Nat.succ_lt_succ hj))

/-- An admitted command that is granted its `k` moves of HCTX completes with its `k` steps. -/
theorem runCommand_hosts {accept : State → State} {s : State} {k : Nat} {rest : List Turn} (hi : s.hupc = .idle)
    (hg : s.env.script = List.replicate k .host ++ rest)
    (hrun : ∀ j, j < k → (hostStep^[j] (accept s)).hupc ≠ .idle ∧ hostBlocked (hostStep^[j] (accept s)) = false)
    (hend : (hostStep^[k] (accept s)).hupc = .idle) :
    runCommand none accept s = .next (setScript rest (hostStep^[k] (accept s))) := by
  rw [runCommand_admitted hi, hg, runScript_hosts k rest _ hrun hend]

/-- A driver command is admitted in a constructed driver (R149). -/
theorem needsDriver_ready {s : State} (h : s.drv = .ready) : needsDriver s = none := by simp [needsDriver, h]

/-- A driver command is refused before construction (R149). -/
theorem needsDriver_absent {s : State} (h : s.drv = .absent) : needsDriver s = some .notConstructed := by
  simp [needsDriver, h]

/-! ### The moves that are no step of a context -/

/-- All the edge rule can do (R244). -/
theorem edgeRule_cases (s : State) :
    (s.armed = .rxDone ∧ edgeRule s = { s with pendRx := true }) ∨
      (s.armed = .txDone ∧ edgeRule s = { s with pendTx := true }) ∨ (s.armed = .none ∧ edgeRule s = s) := by
  unfold edgeRule
  cases h : s.armed <;> simp

/-- All the dispatch rule can do (R245). -/
theorem dispatchRule_cases (b : Bool) (s : State) :
    dispatchRule b s = s ∨
      (s.iupc = .idle ∧ s.pendRx = true ∧ dispatchRule b s = { s with pendRx := false, iupc := .isrRx .r1 }) ∨
      (s.iupc = .idle ∧ s.pendTx = true ∧ dispatchRule b s = { s with pendTx := false, iupc := .isrTx .t1 }) := by
  cases hu : s.iupc with
  | isrRx k => simp [dispatchRule, hu]
  | isrTx k => simp [dispatchRule, hu]
  | idle =>
    cases hr : s.pendRx <;> cases ht : s.pendTx <;> cases b <;>
      simp [dispatchRule, pendingService, takeInterrupt, hu, hr, ht]

/-- All a poll tick can do (R270). -/
theorem pollTick_cases (s : State) :
    pollTick s = s ∨
      (∃ src dst n, s.hupc = .sendPacket src dst n .s15 ∧ pollAgain s = true ∧
        pollTick s = { s with pcnt := s.pcnt + 1, hupc := .sendPacket src dst n .s15 }) ∨
      (∃ src dst n, s.hupc = .sendPacket src dst n .s15Await ∧
        pollTick s = { s with pcnt := s.pcnt + 1, hupc := .sendPacket src dst n .s15 }) := by
  unfold pollTick
  split
  · rename_i src dst n h
    by_cases hp : pollAgain s = true
    · exact .inr (.inl ⟨src, dst, n, h, hp, by simp [hp]⟩)
    · exact .inl (by simp [hp])
  · rename_i src dst n h
    exact .inr (.inr ⟨src, dst, n, h, rfl⟩)
  · exact .inl rfl

/-- ICTX's `acquire LOCK` takes the lock or waits (R33). -/
theorem irqAcquire_cases (u : IUpc) (s : State) :
    (s.lock = .free ∧ irqAcquire u s = { s with lock := .heldByIrq, iupc := u }) ∨
      (s.lock ≠ .free ∧ irqAcquire u s = s) := by
  unfold irqAcquire
  by_cases h : s.lock = .free <;> simp [h]

/-- HCTX's `acquire LOCK` takes the lock or waits (R33). -/
theorem sendAcquire_cases (u : HUpc) (s : State) :
    (s.lock = .free ∧ sendAcquire u s = { s with lock := .heldByHost, hupc := u }) ∨
      (s.lock ≠ .free ∧ sendAcquire u s = s) := by
  unfold sendAcquire
  by_cases h : s.lock = .free <;> simp [h]

/-- A service that reports an anomaly releases the lock, puts out its Diag event and ends; the rest is as it was
(R247 r11, R251 t8). -/
theorem raiseAnomaly_eq (reason : AnomalyReason) (s : State) :
    raiseAnomaly reason s =
      { s with lock := .free, iupc := .idle,
               out := .diag { code := s.cfg.statuses.interruptAnomaly, reason := reasonCode reason, data := s.ictx.f } :: s.out } := rfl

/-! ### The reference target's events -/

/-- TxComplete changes the target's bytes and the latches alone (R84). -/
theorem txCompleteEvent_cases (s : State) :
    txCompleteEvent s = s ∨
      ∃ m, (s.env.tmem.wf = true → m.wf = true) ∧
        (txCompleteEvent s = { s with env := { s.env with tmem := m } } ∨
          txCompleteEvent s = edgeRule { s with env := { s.env with tmem := m } }) := by
  unfold txCompleteEvent routedEdge
  split
  · refine .inr ⟨writeRegs s.env.tmem (txCompleteRegs s), fun h => writeRegs_wf _ h, ?_⟩
    split
    · exact .inr rfl
    · exact .inl rfl
  · exact .inl rfl

/-- RxPacket changes the target's bytes and the latches alone (R85). -/
theorem rxPacketEvent_cases (bytes : List Byte) (crc : Bool) (r n : Byte) (s : State) :
    rxPacketEvent bytes crc r n s = s ∨
      ∃ m, (s.env.tmem.wf = true → m.wf = true) ∧
        (rxPacketEvent bytes crc r n s = { s with env := { s.env with tmem := m } } ∨
          rxPacketEvent bytes crc r n s = edgeRule { s with env := { s.env with tmem := m } }) := by
  unfold rxPacketEvent routedEdge
  split
  · refine .inr ⟨writeRegs (writeFifo s.env.tmem (targetReg s.env s.cfg.regs.fifoRxBaseAddr) bytes)
      (rxPacketRegs bytes.length crc r n s), fun h => writeRegs_wf _ (writeFifo_wf _ _ h), ?_⟩
    split
    · exact .inr rfl
    · exact .inl rfl
  · exact .inl rfl

/-! ### One step -/

/-- A next state comes only in an admitted configuration (U16). -/
theorem ifAdmitted_next {s t : State} {o : Host.Outcome State Fault Refusal} (h : ifAdmitted s o = .next t) :
    s.cfg.admitted = true ∧ o = .next t := by
  unfold ifAdmitted at h
  split at h
  · exact ⟨‹_›, h⟩
  · cases h

/-- In an admitted configuration the step is that of the laid frame, or of the next move. -/
theorem step_admitted {s : State} (h : s.cfg.admitted = true) :
    (∀ frame, s.spiFrame = some frame → step s = stepFrame frame s) ∧
      (s.spiFrame = none → step s = stepTurn (nextTurn s) (afterTurn s)) := by
  constructor
  · intro frame hf
    simp [step, hf, ifAdmitted, h]
  · intro hf
    simp [step, hf, ifAdmitted, h]

/-- All a step can do: a laid frame's transfer, a submission at a free port, or one move. -/
theorem step_cases {s t : State} (h : step s = .next t) :
    s.cfg.admitted = true ∧
      ((∃ frame i, s.spiFrame = some frame ∧ decode s.cfg.opcodes .spi frame = .ok i ∧
          exec i { s with spiFrame := none } = .next t) ∨
        (∃ message, s.spiFrame = none ∧ nextTurn s = .submit message ∧ s.hupc = .idle ∧
          submitMessage message (afterTurn s) = .next t) ∨
        (s.spiFrame = none ∧ t = turn (nextTurn s) (afterTurn s))) := by
  unfold step at h
  split at h
  · rename_i frame hf
    obtain ⟨hadm, h⟩ := ifAdmitted_next h
    unfold stepFrame at h
    split at h
    · rename_i i hi
      exact ⟨hadm, .inl ⟨frame, i, hf, hi, h⟩⟩
    · cases h
  · rename_i hf
    obtain ⟨hadm, h⟩ := ifAdmitted_next h
    refine ⟨hadm, ?_⟩
    unfold stepTurn at h
    split at h
    · rename_i message hn hi
      refine .inr (.inl ⟨message, hf, hn, ?_, h⟩)
      revert hi
      unfold afterTurn
      split <;> exact id
    · cases h
      exact .inr (.inr ⟨hf, rfl⟩)

end Sys2Proof.Machine
end

