-- ==== Sys2Proof/Laws/Target.lean ====
section
/-! SUPPORT. What a run of transfers does to the reference target: the registers are pairwise distinct (R65), and a list of
accesses of plain registers leaves each register at its last write. -/

namespace Sys2Proof.Machine

/-! ### The register map -/

/-- An admitted configuration has pairwise distinct register numbers (R65). -/
theorem regs_nodup {c : Config} (h : c.admitted = true) : c.regs.toList.Nodup := by
  simp only [Config.admitted, RegMap.distinct, Bool.and_eq_true, decide_eq_true_eq] at h
  exact h.1.1.1.1.1.1.1

/-- Two different registers of the map have different addresses. -/
theorem regAddress_inj {a b : RegNum} : regAddress a = regAddress b ↔ a = b :=
  ⟨fun h => BitVec.eq_of_toNat_eq h, fun h => h ▸ rfl⟩

/-- A register lies below the FIFO. -/
theorem regAddress_lt (a : RegNum) : regAddress a < 128 := a.isLt

/-- A register's address is no FIFO position's. -/
theorem regAddress_ne_fifoAddress (a : RegNum) (p : Byte) : regAddress a ≠ fifoAddress p := by
  have := regAddress_lt a
  unfold fifoAddress
  omega

/-- Two FIFO positions have one address only if they are one. -/
theorem fifoAddress_inj {p q : Byte} : fifoAddress p = fifoAddress q ↔ p = q := by
  unfold fifoAddress
  exact ⟨fun h => BitVec.eq_of_toNat_eq (by omega), fun h => h ▸ rfl⟩

/-- A register the reference target stores plainly (R83): neither the FIFO port, nor the IRQ flags, nor read only. -/
def plainReg (r : RegMap) (a : RegNum) : Bool := a != r.fifo && a != r.irqFlags && !readOnlyReg r a

/-- The registers the sequences write, but the FIFO port and the IRQ flags, are stored plainly. -/
theorem plainReg_of_admitted {c : Config} (h : c.admitted = true) :
    ∀ a ∈ [c.regs.opMode, c.regs.frfMsb, c.regs.frfMid, c.regs.frfLsb, c.regs.paConfig, c.regs.lna,
      c.regs.fifoAddrPtr, c.regs.fifoTxBaseAddr, c.regs.fifoRxBaseAddr, c.regs.modemConfig1,
      c.regs.modemConfig2, c.regs.preambleMsb, c.regs.preambleLsb, c.regs.payloadLength,
      c.regs.modemConfig3, c.regs.syncWord, c.regs.dioMapping1], plainReg c.regs a = true := by
  have hn := regs_nodup h
  simp only [RegMap.toList, List.nodup_cons, List.mem_cons, not_or, List.not_mem_nil, not_false_eq_true,
    and_true] at hn
  simp only [List.mem_cons, List.not_mem_nil, or_false, plainReg, readOnlyReg, Bool.and_eq_true, bne_iff_ne, ne_eq,
    Bool.not_eq_true', Bool.or_eq_false_iff, beq_eq_false_iff_ne]
  rintro a ha
  rcases ha with rfl | rfl | rfl | rfl | rfl | rfl | rfl | rfl | rfl | rfl | rfl | rfl | rfl | rfl | rfl | rfl | rfl <;>
    simp [hn, eq_comm]

/-! ### One access -/

/-- The target's memory after a plain write that the reference target takes (R83). -/
theorem read_afterWrite_plain {r : RegMap} {rst : Pin} {e : Env} {a : RegNum} (v : Byte) (hwf : e.tmem.wf = true)
    (hl : targetLive rst e = true) (hp : plainReg r a = true) (b : Nat) :
    (targetAfterWrite r rst e a v).tmem.read b = if b = regAddress a then v else e.tmem.read b := by
  simp only [plainReg, Bool.and_eq_true, bne_iff_ne, ne_eq, Bool.not_eq_true'] at hp
  simp [targetAfterWrite, memAfterWrite, hl, hp, Memory.read_write hwf]

/-- A target that answers by draws keeps its memory in a write. -/
theorem tmem_afterWrite_draw {r : RegMap} {rst : Pin} {e : Env} {a : RegNum} {v : Byte}
    (hl : targetLive rst e = false) : (targetAfterWrite r rst e a v).tmem = e.tmem := by
  simp [targetAfterWrite, hl]

/-- A target that answers by draws keeps its memory in a read. -/
theorem tmem_afterRead_draw {r : RegMap} {rst : Pin} {e : Env} {a : RegNum}
    (hl : targetLive rst e = false) : (targetAfterRead r rst e a).tmem = e.tmem := by
  simp [targetAfterRead, hl]

/-- The target's memory after a write of the FIFO port that the reference target takes (R83). -/
theorem read_afterWrite_fifo {r : RegMap} {rst : Pin} {e : Env} (v : Byte) (hwf : e.tmem.wf = true)
    (hl : targetLive rst e = true) (b : Nat) :
    (targetAfterWrite r rst e r.fifo v).tmem.read b =
      if b = regAddress r.fifoAddrPtr then fifoPointer r e + 1
      else if b = fifoAddress (fifoPointer r e) then v else e.tmem.read b := by
  simp [targetAfterWrite, memAfterWrite, hl, advancePointer, Memory.read_write (Memory.wf_write _ _ hwf),
    Memory.read_write hwf]

/-! ### A run of accesses -/

/-- The target after a list of transfers: a register with a value is a write, one without a read. -/
def accesses (r : RegMap) (rst : Pin) : List (RegNum × Option Byte) → Env → Env
  | [], e => e
  | (a, some v) :: rest, e => accesses r rst rest (targetAfterWrite r rst e a v)
  | (a, none) :: rest, e => accesses r rst rest (targetAfterRead r rst e a)

/-- The value a list of transfers writes to a register last, if it writes it at all. -/
def lastWrite (a : RegNum) : List (RegNum × Option Byte) → Option Byte
  | [] => none
  | (b, w) :: rest => (lastWrite a rest).or (if b = a then w else none)

/-- Only plain registers are written and the FIFO port is not read. -/
def plainAccesses (r : RegMap) (l : List (RegNum × Option Byte)) : Bool :=
  l.all fun x => x.1 != r.fifo && (x.2.isNone || plainReg r x.1)

/-- After plain accesses each register holds its last write; every other byte, and all of them under a target that answers by
draws, is as before (R82, R83). -/
theorem accesses_read {r : RegMap} {rst : Pin} (l : List (RegNum × Option Byte)) {e : Env}
    (hwf : e.tmem.wf = true) (hp : plainAccesses r l = true) :
    (accesses r rst l e).tmem.wf = true ∧
      (targetLive rst e = true → ∀ a, targetReg (accesses r rst l e) a = (lastWrite a l).getD (targetReg e a)) ∧
      ∀ b, (∀ x ∈ l, x.2.isSome → b ≠ regAddress x.1) → (accesses r rst l e).tmem.read b = e.tmem.read b := by
  induction l generalizing e with
  | nil => exact ⟨hwf, fun _ _ => rfl, fun _ _ => rfl⟩
  | cons x rest ih =>
    obtain ⟨a, w⟩ := x
    simp only [plainAccesses, List.all_cons, Bool.and_eq_true, bne_iff_ne, ne_eq] at hp
    obtain ⟨⟨hf, hw⟩, hrest⟩ := hp
    cases w with
    | none =>
      have hm : (targetAfterRead r rst e a).tmem = e.tmem := targetAfterRead_tmem hf
      have h := ih (e := targetAfterRead r rst e a) (by rw [hm]; exact hwf) hrest
      refine ⟨h.1, fun hl b => ?_, fun b hb => ?_⟩
      · rw [accesses, h.2.1 (by simpa using hl) b]
        simp [lastWrite, targetReg, hm]
      · rw [accesses, h.2.2 b fun y hy => hb y (List.mem_cons_of_mem _ hy), hm]
    | some v =>
      have hpl : plainReg r a = true := by simpa using hw
      have h := ih (e := targetAfterWrite r rst e a v) (targetAfterWrite_wf r rst a v hwf) hrest
      refine ⟨h.1, fun hl b => ?_, fun b hb => ?_⟩
      · rw [accesses, h.2.1 (by simpa using hl) b]
        simp only [targetReg, lastWrite]
        rw [read_afterWrite_plain v hwf hl hpl]
        cases lastWrite b rest with
        | some z => simp
        | none =>
          by_cases hab : a = b
          · simp [hab]
          · simp [hab, regAddress_inj, eq_comm]
      · rw [accesses, h.2.2 b fun y hy => hb y (List.mem_cons_of_mem _ hy)]
        have hba : b ≠ regAddress a := hb (a, some v) (List.mem_cons_self ..) rfl
        by_cases hl : targetLive rst e = true
        · rw [read_afterWrite_plain v hwf hl hpl, if_neg hba]
        · rw [tmem_afterWrite_draw (by simpa using hl)]

/-- Accesses touch neither the kind of target nor the moves. -/
theorem accesses_frame {r : RegMap} {rst : Pin} (l : List (RegNum × Option Byte)) (e : Env) :
    (accesses r rst l e).kind = e.kind ∧ (accesses r rst l e).turns = e.turns ∧
      (accesses r rst l e).script = e.script := by
  induction l generalizing e with
  | nil => exact ⟨rfl, rfl, rfl⟩
  | cons x rest ih =>
    obtain ⟨a, w⟩ := x
    cases w with
    | none => simpa [accesses] using ih (targetAfterRead r rst e a)
    | some v => simpa [accesses] using ih (targetAfterWrite r rst e a v)

/-! ### From a run of accesses to the words of the statements -/

/-- The registers at two different places of the map are different (R65). -/
theorem regs_ne {c : Config} (h : c.admitted = true) (i j : Fin 24) (hij : i ≠ j) :
    c.regs.toList[i]'(by have := i.2; simp [RegMap.toList]) ≠
      c.regs.toList[j]'(by have := j.2; simp [RegMap.toList]) := fun he =>
  hij (Fin.ext ((List.Nodup.getElem_inj_iff (regs_nodup h)).1 he))

/-- A list of writes of the plainly stored registers and of reads of anything but the FIFO port is one of plain accesses. -/
theorem plainAccesses_of_admitted {c : Config} (h : c.admitted = true) (l : List (RegNum × Option Byte))
    (hl : ∀ x ∈ l, x.1 ∈ [c.regs.opMode, c.regs.frfMsb, c.regs.frfMid, c.regs.frfLsb, c.regs.paConfig, c.regs.lna,
      c.regs.fifoAddrPtr, c.regs.fifoTxBaseAddr, c.regs.fifoRxBaseAddr, c.regs.modemConfig1,
      c.regs.modemConfig2, c.regs.preambleMsb, c.regs.preambleLsb, c.regs.payloadLength,
      c.regs.modemConfig3, c.regs.syncWord, c.regs.dioMapping1] ∨ (x.2 = none ∧ x.1 ≠ c.regs.fifo)) :
    plainAccesses c.regs l = true := by
  rw [plainAccesses, List.all_eq_true]
  intro x hx
  rcases hl x hx with h1 | ⟨h1, h2⟩
  · have hp := plainReg_of_admitted h x.1 h1
    have hf : x.1 ≠ c.regs.fifo := by simp only [plainReg, Bool.and_eq_true, bne_iff_ne] at hp; exact hp.1.1
    simp [hp, hf]
  · simp [h1, h2]

/-- A run of plain accesses leaves the bus as `BusFrame` says, outside the registers it writes. -/
theorem busFrame_of_accesses {s t : State} {rest : List Turn} (l : List (RegNum × Option Byte)) {addrs : List Nat}
    (hr : Regular s) (hp : plainAccesses s.cfg.regs l = true) (hcs : t.cs = .high)
    (he : t.env = { accesses s.cfg.regs s.rst l s.env with script := rest })
    (ha : ∀ x ∈ l, x.2.isSome → regAddress x.1 ∈ addrs) : BusFrame s t rest addrs := by
  have h := accesses_read (rst := s.rst) l hr.2 hp
  have f := accesses_frame (r := s.cfg.regs) (rst := s.rst) l s.env
  refine ⟨hcs, by rw [he]; exact f.1, by rw [he]; exact f.2.1, by rw [he], fun a hna => ?_⟩
  rw [he]
  exact h.2.2 a fun x hx hs hh => hna (hh ▸ ha x hx hs)

/-- A run of plain accesses leaves in a live target's register what it wrote to it last. -/
theorem stored_of_accesses {s t : State} {rest : List Turn} (l : List (RegNum × Option Byte)) {a : RegNum} {v : Byte}
    (hr : Regular s) (hp : plainAccesses s.cfg.regs l = true)
    (he : t.env = { accesses s.cfg.regs s.rst l s.env with script := rest })
    (ha : lastWrite a l = some v) : Stored s t a v := by
  intro hl
  have h := (accesses_read (rst := s.rst) l hr.2 hp).2.1 hl a
  rw [ha] at h
  rw [he]
  exact h

end Sys2Proof.Machine
end

