-- ==== Sys2Proof/Tests/Slice0.lean ====
section
/-! SUPPORT. Tests: each expected value is the spec's own (the vector V of spec/95_test_vectors.md, or the rule R, that the
comment names). Then one witness for every statement that has hypotheses: a concrete state and operands that meet all of
them together. -/

namespace Sys2Proof.Machine.Tests

-- One theorem after the other: each is a kernel evaluation of its own.
set_option Elab.async false

/-! ## WellFormed: each check refuses an ill-formed term -/

/-- R103: a byte string longer than its length byte can say. -/
theorem test_write_256_ill_formed : (Instr.write (List.replicate 256 0)).wellFormed = false := by decide +kernel
/-- R103. -/
theorem test_send_256_ill_formed : (Instr.sendPacket 1 2 (List.replicate 256 0)).wellFormed = false := by decide +kernel
/-- R119: 255 bytes is still a message. -/
theorem test_send_255_well_formed : (Instr.sendPacket 1 2 (List.replicate 255 0)).wellFormed = true := by decide +kernel
/-- The default configuration is admitted. -/
theorem test_default_admitted : defaultConfig.admitted = true := by decide +kernel
/-- R65: two registers of one number. -/
theorem test_equal_registers_refused :
    ({ defaultConfig with regs := { defaultRegMap with lna := 0x1D } } : Config).admitted = false := by decide +kernel
/-- R67: overlapping fields of REG_MODEM_CONFIG_1. -/
theorem test_overlap_config1_refused :
    ({ defaultConfig with implicitMask := 0x02 } : Config).admitted = false := by decide +kernel
/-- R67: overlapping fields of REG_MODEM_CONFIG_2. -/
theorem test_overlap_config2_refused : ({ defaultConfig with crcMask := 0x10 } : Config).admitted = false := by decide +kernel
/-- R67: overlapping IRQ flags. -/
theorem test_overlap_irq_refused : ({ defaultConfig with irqTxDone := 0x40 } : Config).admitted = false := by decide +kernel
/-- R67: overlapping fields of REG_PA_CONFIG. -/
theorem test_overlap_pa_refused : ({ defaultConfig with paSelectMask := 0x40 } : Config).admitted = false := by decide +kernel
/-- R101: two commands of one opcode. -/
theorem test_equal_opcodes_refused :
    ({ defaultConfig with opcodes := { defaultOpcodes with write := 0x11 } } : Config).admitted = false := by decide +kernel
/-- R104: two statuses of one code. -/
theorem test_equal_statuses_refused :
    ({ defaultConfig with statuses := { defaultStatuses with pinsNotReady := 0x07 } } : Config).admitted = false := by
  decide +kernel
/-- R154: FIFO_TX_BASE_VAL other than 0. -/
theorem test_tx_base_refused : ({ defaultConfig with fifoTxBaseVal := 0x80 } : Config).admitted = false := by decide +kernel
/-- R9: BW_BINS is nine bins. -/
theorem test_bins_refused : ({ defaultConfig with bwBins := [] } : Config).admitted = false := by decide +kernel
/-- D7: a crystal of 0 Hz. -/
theorem test_crystal_refused : ({ defaultConfig with fXoscHz := 0 } : Config).admitted = false := by decide +kernel
/-- R8: a reset hold below 10 ms. -/
theorem test_hold_refused : ({ defaultConfig with resetHoldMs := 9 } : Config).admitted = false := by decide +kernel

/-! ## Decode: each constructor from a message or frame written out from R101, R106 -/

/-- V1. -/
theorem test_decode_resetPins : decode defaultOpcodes .command [0x01] = .ok .resetPins := by decide +kernel
/-- V21. -/
theorem test_decode_init :
    decode defaultOpcodes .command [0x10, 0x19, 0xCF, 0x0E, 0x40, 0x14, 0x00, 0x07, 0xA1, 0x20, 0x03, 0x09, 0x12, 0x34, 0x01, 0x34, 0x00] =
      .ok (.init
        { frequency := 433000000, txPowerLevel := 20, signalBandwidth := 500000, spreadingFactor := 3
          codingRate := 9, preambleLength := 0x1234, implicitHeader := true, syncWord := 0x34, enableCrc := false }) := by
  decide +kernel
/-- V23. -/
theorem test_decode_beginPacket : decode defaultOpcodes .command [0x11] = .ok .beginPacket := by decide +kernel
/-- V24. -/
theorem test_decode_write : decode defaultOpcodes .command [0x12, 0x02, 0x68, 0x69] = .ok (.write [0x68, 0x69]) := by decide +kernel
/-- V28. -/
theorem test_decode_endPacket : decode defaultOpcodes .command [0x13] = .ok .endPacket := by decide +kernel
/-- V30. -/
theorem test_decode_receive : decode defaultOpcodes .command [0x14, 0x10] = .ok (.receive 16) := by decide +kernel
/-- V32. -/
theorem test_decode_onReceive : decode defaultOpcodes .command [0x15, 0x01] = .ok (.onReceive true) := by decide +kernel
/-- V32. -/
theorem test_decode_onTransmit : decode defaultOpcodes .command [0x16, 0x00] = .ok (.onTransmit false) := by decide +kernel
/-- V34. -/
theorem test_decode_setFrequency :
    decode defaultOpcodes .command [0x20, 0x33, 0xBC, 0xA1, 0x00] =
      .ok (.setFrequency 868000000) := by
  decide +kernel
/-- V35. -/
theorem test_decode_setBandwidth :
    decode defaultOpcodes .command [0x21, 0x00, 0x03, 0xD0, 0x90] =
      .ok (.setBandwidth 250000) := by
  decide +kernel
/-- V36. -/
theorem test_decode_setSf : decode defaultOpcodes .command [0x22, 0x0C] = .ok (.setSf 12) := by decide +kernel
/-- V37. -/
theorem test_decode_setCr : decode defaultOpcodes .command [0x23, 0x08] = .ok (.setCr 8) := by decide +kernel
/-- V38. -/
theorem test_decode_setPreamble : decode defaultOpcodes .command [0x24, 0x12, 0x34] = .ok (.setPreamble 0x1234) := by decide +kernel
/-- V39. -/
theorem test_decode_setSync : decode defaultOpcodes .command [0x25, 0x34] = .ok (.setSync 0x34) := by decide +kernel
/-- V40. -/
theorem test_decode_enableCrc : decode defaultOpcodes .command [0x26, 0x00] = .ok (.enableCrc false) := by decide +kernel
/-- V41. -/
theorem test_decode_implicitHeader : decode defaultOpcodes .command [0x27, 0x01] = .ok (.implicitHeader true) := by decide +kernel
/-- V42. -/
theorem test_decode_setTxPower : decode defaultOpcodes .command [0x28, 0x14] = .ok (.setTxPower 20) := by decide +kernel
/-- V46. -/
theorem test_decode_packetRssi : decode defaultOpcodes .command [0x30] = .ok .packetRssi := by decide +kernel
/-- V50. -/
theorem test_decode_packetSnr : decode defaultOpcodes .command [0x31] = .ok .packetSnr := by decide +kernel
/-- V51. -/
theorem test_decode_attach : decode defaultOpcodes .command [0x40] = .ok .attach := by decide +kernel
/-- V52. -/
theorem test_decode_sendPacket :
    decode defaultOpcodes .command [0x41, 0x01, 0xFF, 0x05, 0x68, 0x65, 0x6C, 0x6C, 0x6F] =
      .ok (.sendPacket 0x01 0xFF [0x68, 0x65, 0x6C, 0x6C, 0x6F]) := by
  decide +kernel
/-- V57. -/
theorem test_decode_isPacketAvailable : decode defaultOpcodes .command [0x42] = .ok .isPacketAvailable := by decide +kernel
/-- V58. -/
theorem test_decode_readPacket : decode defaultOpcodes .command [0x43] = .ok .readPacket := by decide +kernel
/-- V2. -/
theorem test_decode_spiRd : decode defaultOpcodes .spi [0x42, 0x00] = .ok (.spiRd 0x42) := by decide +kernel
/-- V3. -/
theorem test_decode_spiWr : decode defaultOpcodes .spi [0xC0, 0x40] = .ok (.spiWr 0x40 0x40) := by decide +kernel

/-- V6 to V9: no instruction, each for its reason. -/
theorem test_decode_illegal :
    decode defaultOpcodes .command [] = .error .empty ∧ decode defaultOpcodes .command [0x17] = .error (.unknownOpcode 0x17) ∧
    decode defaultOpcodes .command [0x01, 0x00] = .error (.wrongLength 0x01) ∧
    decode defaultOpcodes .command [0x12, 0x03, 0xAA, 0xBB] = .error (.wrongLength 0x12) ∧
    decode defaultOpcodes .command [0x41, 0x01, 0xFF, 0x02, 0xAA] = .error (.wrongLength 0x41) ∧
    decode defaultOpcodes .command [0x27, 0x80] = .error (.badBoolean 0x80) := by decide +kernel
/-- R9: the opcodes are the configuration's. -/
theorem test_decode_other_opcodes :
    decode { defaultOpcodes with setSf := 0x50, setCr := 0x22 } .command [0x50, 0x0C] = .ok (.setSf 12) ∧
    decode { defaultOpcodes with setSf := 0x50, setCr := 0x22 } .command [0x22, 0x0C] = .ok (.setCr 12) := by decide +kernel
/-- R106: a frame that is neither pattern. -/
theorem test_decode_not_a_frame : decode defaultOpcodes .spi [0x42, 0x01] = .error .notATransfer := by decide +kernel
/-- The table's numbering: bit 0 is the least significant bit of the first byte of a message (R101). -/
theorem test_table_words :
    decodeTableWord 8 0x11 = some .beginPacket ∧ decodeTableWord 40 0x00A1BC3320 = some (.setFrequency 868000000) := by
  decide +kernel
/-- R121, R122: the textual forms. -/
theorem test_assembler :
    assemblerText (.setSf 7) = some "SET_SF 7" ∧ assemblerText (.write [0x68, 0x0F]) = some "WRITE 68 0F" ∧
    assembleListen = .receive 0 ∧ assembleInit [.spreadingFactor 12] =
      .init { defaultRadioParameters with spreadingFactor := 12 } := by decide +kernel

/-! ## One command each, on the booted state of 95_test_vectors.md -/

/-- The reference target's bytes in the booted state. -/
def bootedTarget : Memory :=
  [(0x01, 0x85), (0x06, 0xE4), (0x07, 0xC0), (0x09, 0x83), (0x0C, 0x23), (0x1D, 0x72), (0x1E, 0x74), (0x21, 0x08),
   (0x22, 0x01), (0x26, 0x04), (0x39, 0x12), (0x42, 0x12)]

/-- The booted state. -/
def booted : State :=
  { State.reset with
    drv := .ready, pinsReady := true, mode := .rxContinuous, hdr := .explicit, freq := 915000000, armed := .rxDone
    rxcb := true, txcb := true, cs := .high, rst := .high
    env := { Env.reset with kind := .reference, tmem := bootedTarget } }

/-- The coming `k` moves are HCTX's, then one of ICTX. -/
def granted (k : Nat) (s : State) : State :=
  { s with env := { s.env with script := List.replicate k .host ++ [.irq] } }

/-- A target that answers these bytes (R74). -/
def answering (bytes : List Byte) (s : State) : State :=
  { s with env := { s.env with kind := .arbitrary, answers := bytes } }

/-- The next state, if there is one. -/
def nextOf : Host.Outcome State Fault Refusal → Option State
  | .next t => some t
  | _ => none

/-- What a command put out, oldest first. -/
def traceOf (o : Host.Outcome State Fault Refusal) : Option (List Emitted) :=
  (nextOf o).map fun t => (t.out.map emitted).reverse

/-- V1. -/
theorem test_resetPins :
    traceOf (exec .resetPins (granted 6 State.reset)) =
      some [.pin (.csPin .high), .pin (.rstPin .low), .pin (.rstPin .high), .response [0x00]] := by
  decide +kernel
/-- V2: one read of REG_VERSION, on the wire `42 00`. -/
theorem test_spiRd :
    traceOf (exec (.spiRd 0x42) booted) = some [hRd 0x42 0x12] ∧
    transferFrame { ctx := .hctx, dir := .rd, reg := 0x42, sent := 0x00, captured := 0x12 } = [0x42, 0x00] := by
  decide +kernel
/-- R106: `0 1000010 00000000` on the line, the first bit sent on the left. -/
theorem test_spiRd_line :
    transferLine { ctx := .hctx, dir := .rd, reg := 0x42, sent := 0x00, captured := 0x12 } =
      [false, true, false, false, false, false, true, false, false, false, false, false, false, false, false, false] := by
  decide +kernel
/-- V3 and R83: a write of REG_IRQ_FLAGS clears the bits written as 1. -/
theorem test_spiWr :
    (nextOf (exec (.spiWr 0x12 0x40) { booted with env := { booted.env with tmem := [(0x12, 0x48)] } })).map
      (fun t => t.env.tmem) = some [(0x12, 0x08)] := by
  decide +kernel
/-- V22: a version mismatch. -/
theorem test_init_mismatch :
    traceOf (exec (.init defaultRadioParameters) (granted 26 (answering [0x22] booted))) =
      some [hRd 0x42 0x22, .diag ⟨0x01, 0x00, 0x22⟩, .response [0x01]] := by
  decide +kernel
/-- V33: INIT in the booted state. -/
theorem test_init :
    traceOf (exec (.init defaultRadioParameters) (granted 26 booted)) =
      some [hRd 0x42 0x12, hWr 0x01 0x80, hWr 0x06 0xE4, hWr 0x07 0xC0, hWr 0x08 0x00, hRd 0x1D 0x72, hWr 0x1D 0x72,
        hRd 0x0C 0x23, hWr 0x0C 0x23, hWr 0x26 0x04, hWr 0x09 0x83, hRd 0x1D 0x72, hWr 0x1D 0x72, hRd 0x1E 0x74,
        hWr 0x1E 0x74, hRd 0x1D 0x72, hWr 0x1D 0x72, hWr 0x20 0x00, hWr 0x21 0x08, hWr 0x39 0x12, hRd 0x1E 0x74,
        hWr 0x1E 0x74, hWr 0x0E 0x00, hWr 0x0F 0x00, hWr 0x01 0x81, .response [0x00]] := by
  decide +kernel
/-- V23. -/
theorem test_beginPacket :
    traceOf (exec .beginPacket (granted 3 booted)) =
      some [hWr 0x01 0x81, hWr 0x0D 0x00, hWr 0x22 0x00, .response [0x00]] := by
  decide +kernel
/-- R155: the booted length is 1. -/
theorem test_write :
    traceOf (exec (.write [0x68, 0x69]) (granted 4 booted)) =
      some [hRd 0x22 0x01, hWr 0x00 0x68, hWr 0x00 0x69, hWr 0x22 0x03, .response [0x00, 0x02]] := by
  decide +kernel
/-- V19: (2, FE) writes 1 byte. -/
theorem test_write_truncated :
    traceOf (exec (.write [0x68, 0x69]) (granted 4 (answering [0xFE, 0, 0] booted))) =
      some [hRd 0x22 0xFE, hWr 0x00 0x68, hWr 0x22 0xFF, .response [0x00, 0x01]] := by
  decide +kernel
/-- V28. -/
theorem test_endPacket :
    traceOf (exec .endPacket (granted 3 booted)) =
      some [hWr 0x40 0x40, hWr 0x01 0x83, .response [0x00]] := by
  decide +kernel
/-- V28. -/
theorem test_endPacket_no_callback :
    traceOf (exec .endPacket (granted 3 { booted with txcb := false })) =
      some [hWr 0x01 0x83, .response [0x00]] := by
  decide +kernel
/-- V30. -/
theorem test_receive_fixed :
    traceOf (exec (.receive 16) (granted 6 booted)) =
      some [hRd 0x1D 0x72, hWr 0x1D 0x73, hWr 0x22 0x10, hWr 0x40 0x00, hWr 0x01 0x85, .response [0x00]] := by
  decide +kernel
/-- V29, V31. -/
theorem test_receive_any :
    traceOf (exec (.receive 0) (granted 6 { booted with rxcb := false })) =
      some [hWr 0x01 0x85, .response [0x00]] := by
  decide +kernel
/-- V32. -/
theorem test_onReceive :
    (nextOf (exec (.onReceive false) (granted 1 booted))).map (fun t => (t.rxcb, t.armed)) = some (false, .rxDone) := by
  decide +kernel
/-- V32. -/
theorem test_onTransmit :
    (nextOf (exec (.onTransmit false) (granted 1 booted))).map (fun t => (t.txcb, t.rxcb)) = some (false, true) := by
  decide +kernel
/-- V34. -/
theorem test_setFrequency :
    traceOf (exec (.setFrequency 868000000) (granted 3 booted)) =
      some [hWr 0x06 0xD9, hWr 0x07 0x00, hWr 0x08 0x00, .response [0x00]] := by
  decide +kernel
/-- V34. -/
theorem test_setFrequency_saturates :
    traceOf (exec (.setFrequency 1024000000) (granted 3 booted)) =
      some [hWr 0x06 0xFF, hWr 0x07 0xFF, hWr 0x08 0xFF, .response [0x00]] := by
  decide +kernel
/-- V35. -/
theorem test_setBandwidth :
    traceOf (exec (.setBandwidth 250000) (granted 2 booted)) =
      some [hRd 0x1D 0x72, hWr 0x1D 0x82, .response [0x00]] := by
  decide +kernel
/-- V35. -/
theorem test_setBandwidth_keeps_other_fields :
    traceOf (exec (.setBandwidth 125000) (granted 2 (answering [0xFF, 0] booted))) =
      some [hRd 0x1D 0xFF, hWr 0x1D 0x7F, .response [0x00]] := by
  decide +kernel
/-- V36. -/
theorem test_setSf :
    traceOf (exec (.setSf 3) (granted 2 booted)) =
      some [hRd 0x1E 0x74, hWr 0x1E 0x64, .response [0x00]] := by
  decide +kernel
/-- V36. -/
theorem test_setSf_keeps_other_fields :
    traceOf (exec (.setSf 9) (granted 2 (answering [0x0F, 0] booted))) =
      some [hRd 0x1E 0x0F, hWr 0x1E 0x9F, .response [0x00]] := by
  decide +kernel
/-- V37. -/
theorem test_setCr :
    traceOf (exec (.setCr 8) (granted 2 booted)) =
      some [hRd 0x1D 0x72, hWr 0x1D 0x78, .response [0x00]] := by
  decide +kernel
/-- V37. -/
theorem test_setCr_keeps_other_fields :
    traceOf (exec (.setCr 5) (granted 2 (answering [0xFF, 0] booted))) =
      some [hRd 0x1D 0xFF, hWr 0x1D 0xF3, .response [0x00]] := by
  decide +kernel
/-- V38. -/
theorem test_setPreamble :
    traceOf (exec (.setPreamble 0x1234) (granted 2 booted)) =
      some [hWr 0x20 0x12, hWr 0x21 0x34, .response [0x00]] := by
  decide +kernel
/-- V39. -/
theorem test_setSync :
    traceOf (exec (.setSync 0x34) (granted 1 booted)) =
      some [hWr 0x39 0x34, .response [0x00]] := by
  decide +kernel
/-- V40. -/
theorem test_enableCrc_false :
    traceOf (exec (.enableCrc false) (granted 2 booted)) =
      some [hRd 0x1E 0x74, hWr 0x1E 0x70, .response [0x00]] := by
  decide +kernel
/-- V40. -/
theorem test_enableCrc_true :
    traceOf (exec (.enableCrc true) (granted 2 booted)) =
      some [hRd 0x1E 0x74, hWr 0x1E 0x74, .response [0x00]] := by
  decide +kernel
/-- V41. -/
theorem test_implicitHeader_no_op :
    traceOf (exec (.implicitHeader false) (granted 2 booted)) =
      some [.response [0x00]] := by
  decide +kernel
/-- V41. -/
theorem test_implicitHeader :
    traceOf (exec (.implicitHeader true) (granted 2 booted)) =
      some [hRd 0x1D 0x72, hWr 0x1D 0x73, .response [0x00]] := by
  decide +kernel
/-- V42. -/
theorem test_setTxPower :
    traceOf (exec (.setTxPower 20) (granted 1 booted)) =
      some [hWr 0x09 0x8F, .response [0x00]] := by
  decide +kernel
/-- V42. -/
theorem test_setTxPower_rfo :
    traceOf (exec (.setTxPower 20) (granted 1 { booted with cfg := { defaultConfig with paSelect := .rfo } })) =
      some [hWr 0x09 0x7E, .response [0x00]] := by
  decide +kernel
/-- V46. -/
theorem test_packetRssi :
    traceOf (exec .packetRssi (granted 1 (answering [0x64] booted))) =
      some [hRd 0x1A 0x64, .response [0x00, 0xFF, 0xC7]] := by
  decide +kernel
/-- V48. -/
theorem test_packetRssi_low_band :
    traceOf (exec .packetRssi (granted 1 (answering [0x64] { booted with freq := 867999999 }))) =
      some [hRd 0x1A 0x64, .response [0x00, 0xFF, 0xC0]] := by
  decide +kernel
/-- V50. -/
theorem test_packetSnr :
    traceOf (exec .packetSnr (granted 1 (answering [0xF8] booted))) =
      some [hRd 0x19 0xF8, .response [0x00, 0xF8]] := by
  decide +kernel
/-- V51. -/
theorem test_attach :
    (nextOf (exec .attach (granted 1 { booted with seq := 9, rxcb := false, slot := { Slot.reset with valid := true } }))).map
      (fun t => (t.seq, t.rxcb, t.slot.valid)) = some (0, true, false) := by
  decide +kernel
/-- V53: the frame of an empty payload, the counter wrapping; the wait begins. -/
theorem test_sendPacket :
    traceOf (exec (.sendPacket 0x0A 0x0B []) (granted 22 { booted with seq := 255 })) =
      some [hWr 0x01 0x81, hWr 0x0D 0x00, hWr 0x22 0x00, hRd 0x22 0x00, hWr 0x00 0x0A, hWr 0x00 0x0B, hWr 0x00 0x00,
        hWr 0x00 0x00, hWr 0x22 0x04, hRd 0x22 0x04, hWr 0x22 0x04, hWr 0x40 0x40, hWr 0x01 0x83] := by
  decide +kernel
/-- V55: 252 bytes are refused. -/
theorem test_sendPacket_too_long :
    traceOf (exec (.sendPacket 1 2 (List.replicate 252 0)) booted) = some [.response [0x06]] := by
  decide +kernel
/-- V57. -/
theorem test_isPacketAvailable :
    traceOf (exec .isPacketAvailable (granted 1 booted)) = some [.response [0x00, 0x00]] := by
  decide +kernel
/-- The slot of V58. -/
def helloSlot : Slot :=
  { valid := true, srcAddress := 0x01, dstAddress := 0xFF, sequenceNumber := 0x07, payloadLength := 5, count := 5
    payload := [0x68, 0x65, 0x6C, 0x6C, 0x6F], rssi := -57, snrRaw := 0x28 }
/-- V58. -/
theorem test_readPacket :
    traceOf (exec .readPacket (granted 1 { booted with slot := helloSlot })) =
      some [.response [0x00, 0x01, 0x01, 0xFF, 0x07, 0x05, 0x05, 0x68, 0x65, 0x6C, 0x6C, 0x6F, 0xFF, 0xC7, 0x28]] := by
  decide +kernel
/-- V61: with no handler attached the edge is lost. -/
theorem test_edge_lost : turn .edge { booted with armed := .none } = { booted with armed := .none } := by decide +kernel
/-- R84: TxComplete flags the end, puts the target in standby and delivers the edge routed to TX done. -/
theorem test_txComplete :
    let s := turn .txComplete
      { booted with armed := .txDone, env := { booted.env with tmem := [(0x01, 0x83), (0x40, 0x40)] } }
    s.env.tmem = [(0x01, 0x81), (0x12, 0x08), (0x40, 0x40)] ∧ s.pendTx = true := by
  decide +kernel
/-- R85 (V65): RxPacket stores the bytes, reports them and delivers the edge. -/
theorem test_rxPacket :
    let s := turn (.rxPacket [0x10, 0x20] false 0x64 0x28)
      { booted with env := { booted.env with tmem := [(0x01, 0x85)] } }
    s.env.tmem = [(0x01, 0x85), (0x12, 0x40), (0x13, 0x02), (0x19, 0x28), (0x1A, 0x64), (0x100, 0x10), (0x101, 0x20)] ∧
      s.pendRx = true := by
  decide +kernel

/-- R140, R84: an edge the target makes while RST is low is latched like any other. -/
theorem test_txComplete_during_reset :
    (turn .txComplete
      { booted with rst := .low, hupc := .resetPins .s3, armed := .txDone, env := { booted.env with tmem := [(0x01, 0x83), (0x40, 0x40)] } }).pendTx =
      true := by
  decide +kernel
/-- R22: IT is the byte of the most recent read of ICTX, here the IRQ flags of r2 (R247). -/
theorem test_it_is_latest_read :
    let s := turn .irq { answering [0x40] booted with iupc := .isrRx .r2 }
    s.ictx.f = 0x40 ∧ s.ictx.it = 0x40 := by
  decide +kernel
/-- R152: i12 makes its transfer, and i13 follows, also where a re-arm has set HDR since i0 (R301). -/
theorem test_init_header_after_rearm :
    let s := turn .host { booted with hupc := .init defaultRadioParameters .i12, hdr := .explicit }
    s.hupc = .init defaultRadioParameters .i13 ∧ s.out.map emitted = [hRd 0x1D 0x72] := by
  decide +kernel

/-! ## Witnesses: the hypotheses of each statement are met together -/

theorem witness_DecodeOfEncode :
    defaultOpcodes.distinct = true ∧ (Instr.write (List.replicate 255 0)).wellFormed = true ∧
      (Instr.sendPacket 1 2 (List.replicate 255 0)).wellFormed = true ∧ (Instr.spiWr 0x7F 0xFF).wellFormed = true := by
  decide +kernel

theorem witness_EncodeOfDecode :
    decode defaultOpcodes .command [0x12, 0x00] = .ok (.write []) ∧ decode defaultOpcodes .spi [0xFF, 0x00] = .ok (.spiWr 0x7F 0x00) := by
  decide +kernel

/-- The coming move submits `message` to the booted block. -/
def submitting (message : List Byte) (s : State) : State :=
  { s with env := { s.env with script := .submit message :: List.replicate 3 .host } }

theorem witness_IllegalMessagesRefused :
    defaultOpcodes.distinct = true ∧ illegalMessage defaultOpcodes [0x15, 0x02] = true ∧ illegalMessage defaultOpcodes [] = true ∧
      illegalMessage defaultOpcodes [0x15, 0x01] = false ∧
      (submitting [0x15, 0x02] booted).cfg.admitted = true ∧ (submitting [0x15, 0x02] booted).spiFrame = none ∧
      (submitting [0x15, 0x02] booted).hupc = .idle ∧
      (submitting [0x15, 0x02] booted).env.script = .submit [0x15, 0x02] :: List.replicate 3 .host := by
  decide +kernel

/-- The booted block with a transfer frame laid at its SPI port. -/
def framed (frame : List Byte) : State := { booted with spiFrame := some frame }

theorem witness_StepRunsDecodedInstruction :
    ((framed [0x42, 0x00]).cfg.admitted = true ∧ (framed [0x42, 0x00]).spiFrame = some [0x42, 0x00] ∧
        decode defaultOpcodes .spi [0x42, 0x00] = .ok (.spiRd 0x42)) ∧
      ((submitting [0x11] booted).cfg.admitted = true ∧ (submitting [0x11] booted).spiFrame = none ∧
        (submitting [0x11] booted).hupc = .idle ∧
        (submitting [0x11] booted).env.script = .submit [0x11] :: List.replicate 3 .host ∧
        decode defaultOpcodes .command [0x11] = .ok .beginPacket) := by
  decide +kernel

theorem witness_StepTakesOneMove_laid :
    (granted 1 booted).cfg.admitted = true ∧ (granted 1 booted).spiFrame = none ∧
      (granted 1 booted).env.script = Turn.host :: [.irq] ∧ ∀ message, Turn.host ≠ .submit message :=
  ⟨by decide +kernel, rfl, rfl, nofun⟩

theorem witness_StepTakesOneMove_free :
    ({ booted with hupc := .attach } : State).cfg.admitted = true ∧
      ({ booted with hupc := .attach } : State).spiFrame = none ∧
      ({ booted with hupc := .attach } : State).env.script = [] ∧
      ({ booted with hupc := .attach } : State).hupc ≠ .idle :=
  ⟨by decide +kernel, rfl, rfl, nofun⟩

theorem witness_TableWordRuns :
    booted.cfg.admitted = true ∧ booted.cfg.opcodes = defaultOpcodes ∧ decodeTableWord 8 0x11 = some .beginPacket ∧
      decodeTableWord 16 0x8181 = some (.spiWr 0x01 0x81) ∧
      decodeWord { defaultOpcodes with attach := 0x77 } 8 0x77 = some .attach := by
  decide +kernel

/-- A configuration outside the admitted set. -/
def unadmitted : State := { booted with cfg := { defaultConfig with fifoTxBaseVal := 0x80 } }

theorem witness_StepRefusals_configuration : unadmitted.cfg.admitted = false := by decide +kernel

theorem witness_StepRefusals_frame :
    (framed [0x42, 0x01]).cfg.admitted = true ∧ (framed [0x42, 0x01]).spiFrame = some [0x42, 0x01] ∧
      ∀ i, decode defaultOpcodes .spi [0x42, 0x01] ≠ .ok i :=
  ⟨by decide +kernel, rfl, fun i h => by rw [test_decode_not_a_frame] at h; cases h⟩

theorem witness_RefusedBeforeConstruction :
    State.reset.hupc = .idle ∧ needsConstruction .attach = true ∧ State.reset.drv = .absent ∧ State.reset.pinsReady = false := by
  decide +kernel

theorem witness_RefusalOrder :
    let s := submitting (encode defaultOpcodes (.init defaultRadioParameters)) State.reset
    s.cfg.admitted = true ∧ s.spiFrame = none ∧ s.hupc = .idle ∧
    s.env.script = .submit (encode defaultOpcodes (.init defaultRadioParameters)) :: List.replicate 3 .host ∧
    decode defaultOpcodes .command (encode defaultOpcodes (.init defaultRadioParameters)) = .ok (.init defaultRadioParameters) ∧ s.pinsReady = false := by
  decide +kernel

theorem witness_RefusalOrder_notConstructed :
    let s := submitting [0x43] State.reset
    s.cfg.admitted = true ∧ s.spiFrame = none ∧ s.hupc = .idle ∧ s.env.script = .submit [0x43] :: List.replicate 3 .host ∧
    decode defaultOpcodes .command [0x43] = .ok .readPacket ∧ needsConstruction .readPacket = true ∧ s.drv = .absent := by
  decide +kernel

/-- A SEND_PACKET of 252 bytes: the shortest one that is too long. -/
def longSend : List Byte := [0x41, 0x01, 0x02, 0xFC] ++ List.replicate 252 0


theorem witness_RefusalOrder_payloadTooLong :
    let s := submitting longSend booted
    s.cfg.admitted = true ∧ s.spiFrame = none ∧ s.hupc = .idle ∧ s.env.script = .submit longSend :: List.replicate 3 .host ∧
    decode defaultOpcodes .command longSend = .ok (.sendPacket 1 2 (List.replicate 252 0)) ∧ s.drv = .ready ∧
    251 < (List.replicate 252 (0 : Byte)).length := by
  decide +kernel

theorem witness_RefusalOrder_illegal :
    let s := submitting [0x44] State.reset
    s.cfg.admitted = true ∧ s.spiFrame = none ∧ s.hupc = .idle ∧ s.env.script = .submit [0x44] :: List.replicate 3 .host ∧
    illegalMessage defaultOpcodes [0x44] = true := by
  decide +kernel

theorem witness_BusyPort :
    ({ booted with hupc := .attach } : State).hupc ≠ .idle ∧ Instr.readPacket.port = .command := by
  decide +kernel

theorem witness_ResetPinsPulsesReset :
    PortFree (granted 6 State.reset) ∧ Granted 6 [.irq] (granted 6 State.reset) := by
  decide +kernel

theorem witness_TargetResetValues :
    PortFree (granted 6 booted) ∧ (granted 6 booted).cfg.admitted = true ∧ (granted 6 booted).env.kind = .reference ∧
      Granted 6 [.irq] (granted 6 booted) := by
  decide +kernel

theorem witness_SpiReadTransfer :
    booted.env.tmem.wf = true ∧ Live booted ∧ (0x00 : RegNum) = booted.cfg.regs.fifo ∧ (0x42 : RegNum) ≠ booted.cfg.regs.fifo ∧
      State.reset.env.tmem.wf = true ∧ ¬ Live State.reset := by
  decide +kernel

theorem witness_SpiWriteTransfer :
    booted.env.tmem.wf = true ∧ Live booted ∧ State.reset.env.tmem.wf = true ∧ ¬ Live State.reset ∧
      (0x00 : RegNum) = booted.cfg.regs.fifo ∧ (0x12 : RegNum) = booted.cfg.regs.irqFlags ∧
      (0x42 : RegNum) = booted.cfg.regs.version ∧ (0x01 : RegNum) ∉ booted.cfg.regs.fifo :: booted.cfg.regs.irqFlags ::
        [booted.cfg.regs.version, booted.cfg.regs.fifoRxCurrentAddr, booted.cfg.regs.rxNbBytes,
          booted.cfg.regs.pktSnrValue, booted.cfg.regs.pktRssiValue] := by
  decide +kernel

theorem witness_WriteThenRead :
    booted.env.tmem.wf = true ∧ Live booted ∧ (0x01 : RegNum) ∉ [booted.cfg.regs.fifo, booted.cfg.regs.irqFlags,
        booted.cfg.regs.version, booted.cfg.regs.fifoRxCurrentAddr, booted.cfg.regs.rxNbBytes,
        booted.cfg.regs.pktSnrValue, booted.cfg.regs.pktRssiValue] := by
  decide +kernel

theorem witness_InitConfiguresTarget :
    PortFree (granted 26 booted) ∧ Regular (granted 26 booted) ∧ (granted 26 booted).pinsReady = true ∧
      captured (granted 26 booted).cfg.regs.version (granted 26 booted) = (granted 26 booted).cfg.expectedVersion ∧
      Granted 26 [.irq] (granted 26 booted) := by
  decide +kernel

/-- Where a re-arm has set HDR since i0. -/
theorem witness_InitConfiguresTarget_rearmed :
    let s := { booted with hupc := .init defaultRadioParameters .i12, iupc := .isrTx (.d2 .v4) }
    s.hupc = .init defaultRadioParameters .i12 ∧ hostBlocked s = false ∧ InitStep.i12 ≠ .i0 := by
  decide +kernel

theorem witness_InitFieldsReadBack :
    Live (granted 26 booted) ∧ PortFree (granted 26 booted) ∧ Regular (granted 26 booted) ∧ (granted 26 booted).pinsReady = true ∧
      captured (granted 26 booted).cfg.regs.version (granted 26 booted) = (granted 26 booted).cfg.expectedVersion ∧
      Granted 26 [.irq] (granted 26 booted) := by
  decide +kernel

/-- A block whose target answers 0x22 to the version read. -/
def otherDevice : State := granted 2 (answering [0x22] booted)

theorem witness_InitVersionMismatch :
    PortFree otherDevice ∧ Regular otherDevice ∧ otherDevice.pinsReady = true ∧
      captured otherDevice.cfg.regs.version otherDevice ≠ otherDevice.cfg.expectedVersion ∧ Granted 2 [.irq] otherDevice ∧
      needsConstruction .attach = true := by
  decide +kernel

theorem witness_BeginPacketResetsFifo :
    Ready (granted 3 booted) ∧ Regular (granted 3 booted) ∧ Granted 3 [.irq] (granted 3 booted) := by
  decide +kernel

theorem witness_WriteAppendsWithinCapacity :
    (List.replicate 255 (7 : Byte)).length ≤ 255 ∧ Ready (granted 256 booted) ∧ Regular (granted 256 booted) ∧
      (0x01 : Byte) = captured (granted 256 booted).cfg.regs.payloadLength (granted 256 booted) ∧
      (0x00 : Byte) = targetReg (granted 256 booted).env (granted 256 booted).cfg.regs.fifoAddrPtr ∧
      254 = min (List.replicate 255 (7 : Byte)).length (255 - (0x01 : Byte).toNat) ∧
      Granted (254 + 2) [.irq] (granted 256 booted) := by
  decide +kernel

theorem witness_EndPacketEntersTx :
    Ready (granted 3 booted) ∧ Regular (granted 3 booted) ∧
      Granted (if (granted 3 booted).txcb then 3 else 2) [.irq] (granted 3 booted) := by
  decide +kernel

theorem witness_ReceiveEntersRxContinuous :
    Ready (granted 6 booted) ∧ Regular (granted 6 booted) ∧
      (0x72 : Byte) = captured (granted 6 booted).cfg.regs.modemConfig1 (granted 6 booted) ∧
      Granted (3 + (if (granted 6 booted).hdr = HdrMode.implicit then 0 else 1) + (if (16 : Byte) = 0 then 0 else 1) +
        (if (granted 6 booted).rxcb then 1 else 0)) [.irq] (granted 6 booted) := by
  decide +kernel

theorem witness_ReceiveEntersRxContinuous_zero :
    Ready (granted 4 booted) ∧ Regular (granted 4 booted) ∧
      Granted (3 + (if (granted 4 booted).hdr = HdrMode.explicit then 0 else 1) + (if (0 : Byte) = 0 then 0 else 1) +
        (if (granted 4 booted).rxcb then 1 else 0)) [.irq] (granted 4 booted) := by
  decide +kernel

theorem witness_CallbackRegistration :
    Ready (granted 1 booted) ∧ Granted 1 [.irq] (granted 1 booted) := by
  decide +kernel

theorem witness_SetFrequencyWritesWord :
    Ready (granted 3 booted) ∧ Regular (granted 3 booted) ∧ Granted 3 [.irq] (granted 3 booted) ∧
      Live (granted 3 booted) ∧ (0xD90000 : BitVec 24).toNat = min ((868000000 : Hz).toNat *
        2 ^ (granted 3 booted).cfg.frfShift / (granted 3 booted).cfg.fXoscHz) 0xFFFFFF := by
  decide +kernel

theorem witness_BandwidthCode :
    defaultConfig.bwBins.length = 9 ∧
      ((7801 : Hz).toNat ≤ defaultConfig.bwBins.getD 1 0 ∧ ∀ j, j < 1 → defaultConfig.bwBins.getD j 0 < (7801 : Hz).toNat) ∧
      (∀ j, j < 9 → defaultConfig.bwBins.getD j 0 < (250001 : Hz).toNat) := by
  decide +kernel

theorem witness_SetBandwidthMergesCode :
    Ready (granted 2 booted) ∧ Regular (granted 2 booted) ∧ Granted 2 [.irq] (granted 2 booted) ∧
      (0x72 : Byte) = captured (granted 2 booted).cfg.regs.modemConfig1 (granted 2 booted) := by
  decide +kernel

theorem witness_SetSfMergesClampedFactor :
    Ready (granted 2 booted) ∧ Regular (granted 2 booted) ∧ Granted 2 [.irq] (granted 2 booted) ∧
      (0x74 : Byte) = captured (granted 2 booted).cfg.regs.modemConfig2 (granted 2 booted) := by
  decide +kernel

theorem witness_SetCrMergesClampedRate :
    Ready (granted 2 booted) ∧ Regular (granted 2 booted) ∧ Granted 2 [.irq] (granted 2 booted) ∧
      (0x72 : Byte) = captured (granted 2 booted).cfg.regs.modemConfig1 (granted 2 booted) := by
  decide +kernel

theorem witness_EnableCrcMergesBit :
    Ready (granted 2 booted) ∧ Regular (granted 2 booted) ∧ Granted 2 [.irq] (granted 2 booted) ∧
      (0x74 : Byte) = captured (granted 2 booted).cfg.regs.modemConfig2 (granted 2 booted) := by
  decide +kernel

/-- The booted block with the other amplifier output. -/
def rfo : State := granted 2 { booted with cfg := { defaultConfig with paSelect := .rfo } }

theorem witness_ClampIdempotence :
    Ready (granted 2 booted) ∧ Granted 2 [.irq] (granted 2 booted) ∧ (granted 2 booted).cfg.paSelect = .paBoost ∧
      (5 : Byte) < 6 ∧ (12 : Byte) < 13 ∧ (4 : Byte) < 5 ∧ (8 : Byte) < 9 ∧ (1 : Byte) < 2 ∧ (17 : Byte) < 18 ∧
      Ready rfo ∧ Granted 2 [.irq] rfo ∧ rfo.cfg.paSelect = .rfo ∧ (14 : Byte) < 15 := by
  decide +kernel

theorem witness_SetPreambleWritesBothBytes :
    Ready (granted 2 booted) ∧ Regular (granted 2 booted) ∧ Granted 2 [.irq] (granted 2 booted) ∧ Live (granted 2 booted) := by
  decide +kernel

theorem witness_SetSyncWritesWord :
    Ready (granted 1 booted) ∧ Regular (granted 1 booted) ∧ Granted 1 [.irq] (granted 1 booted) := by
  decide +kernel

theorem witness_ImplicitHeaderTracksMode :
    Ready (granted 1 booted) ∧ Regular (granted 1 booted) ∧ (granted 1 booted).hdr = .explicit ∧
      Granted 1 [.irq] (granted 1 booted) ∧ Ready (granted 2 booted) ∧ Regular (granted 2 booted) ∧
      (0x72 : Byte) = captured (granted 2 booted).cfg.regs.modemConfig1 (granted 2 booted) ∧ (granted 2 booted).hdr ≠ .implicit ∧
      Granted 2 [.irq] (granted 2 booted) := by
  decide +kernel

/-- The default layout, both outputs: level 20 is 15 over 2, or the 14 of RFO. -/
theorem witness_SetTxPowerWritesByte :
    Ready (granted 1 booted) ∧ Regular (granted 1 booted) ∧ Granted 1 [.irq] (granted 1 booted) ∧
      (granted 1 booted).cfg.paSelect = .paBoost ∧ (15 : Byte) = (if (20 : Byte) < 2 then 2 else if (20 : Byte) ≤ 17 then 20 else 17) - 2 ∧
      (0x8F : Byte) = defaultConfig.paSelectMask ||| fieldBits defaultConfig.paOutputPower 15 ∧
      defaultConfig.paSelectMask = 0x80 ∧ defaultConfig.paMaxPower = ⟨0x70, 4⟩ ∧ defaultConfig.paOutputPower = ⟨0x0F, 0⟩ ∧
      (0x7E : Byte) = fieldBits defaultConfig.paMaxPower 7 ||| fieldBits defaultConfig.paOutputPower 14 := by
  decide +kernel

theorem witness_SettersIdempotent :
    isSetter (.setSf 12) = true ∧ Ready (granted 6 booted) ∧ Regular (granted 6 booted) ∧ Granted 6 [.irq] (granted 6 booted) ∧
      Live (granted 6 booted) := by
  decide +kernel

theorem witness_SettersCommute :
    isSetter (.setSf 12) = true ∧ isSetter (.enableCrc false) = true ∧ sameSetter (.setSf 12) (.enableCrc false) = false ∧
      Ready (granted 6 booted) ∧ Regular (granted 6 booted) ∧ Granted 6 [.irq] (granted 6 booted) ∧
      Live (granted 6 booted) := by
  decide +kernel

theorem witness_PacketRssiAnswersDbm :
    let s := granted 1 (answering [0x64] booted)
    Ready s ∧ Regular s ∧ Granted 1 [.irq] s ∧ (0x64 : Byte) = captured s.cfg.regs.pktRssiValue s := by
  decide +kernel

theorem witness_PacketSnrAnswersRawByte :
    let s := granted 1 (answering [0x28] booted)
    Ready s ∧ Regular s ∧ Granted 1 [.irq] s ∧ (0x28 : Byte) = captured s.cfg.regs.pktSnrValue s := by
  decide +kernel

theorem witness_AttachResetsFramer :
    Ready (granted 1 booted) ∧ Granted 1 [.irq] (granted 1 booted) := by
  decide +kernel

theorem witness_SlotIsReadAndCleared :
    let s := granted 1 { booted with slot := { helloSlot with rssi := -164 } }
    Ready s ∧ Granted 1 [.irq] s ∧ -164 ≤ s.slot.rssi ∧ s.slot.rssi ≤ 98 ∧ s.slot.valid = true := by
  decide +kernel

theorem witness_SlotIsReadAndCleared_empty :
    Ready (granted 1 booted) ∧ Granted 1 [.irq] (granted 1 booted) ∧ -164 ≤ (granted 1 booted).slot.rssi ∧
      (granted 1 booted).slot.rssi ≤ 98 ∧ (granted 1 booted).slot.valid = false := by
  decide +kernel

/-- The block `s` with moves laid down for one SEND_PACKET of `n` bytes that completes. -/
def sending (n : Nat) (s : State) : State :=
  setScript (List.replicate (20 + n) Turn.host ++ [Turn.txComplete, Turn.dispatch true] ++
    List.replicate (11 + (if s.hdr = .explicit then 0 else 1) + (if s.rxcb then 1 else 0)) Turn.irq ++
    List.replicate 2 Turn.host ++ [Turn.edge]) s

theorem witness_SendPacketCompletes :
    let s := sending 5 booted
    5 = ([1, 2, 3, 4, 5] : List Byte).length ∧ 5 ≤ 251 ∧ s.hupc = .idle ∧ s.iupc = .idle ∧ s.drv = .ready ∧ s.lock = .free ∧
    Regular s ∧ Live s ∧ s.txcb = true ∧ (s.cfg.opmodeLongRange ||| s.cfg.opmodeTx).extractLsb' 0 3 = 3 ∧
    s.cfg.dio0MapTxDone.extractLsb' 6 2 = 1 ∧ (0x08 : Byte) = targetReg s.env s.cfg.regs.irqFlags ||| 0x08 ∧
    flagSet 0x08 s.cfg.irqTxDone = true ∧ (0x72 : Byte) = targetReg s.env s.cfg.regs.modemConfig1 ∧
    s.env.script = List.replicate (20 + 5) Turn.host ++ [Turn.txComplete, Turn.dispatch true] ++
      List.replicate (11 + (if s.hdr = .explicit then 0 else 1) + (if s.rxcb then 1 else 0)) Turn.irq ++
      List.replicate 2 Turn.host ++ [Turn.edge] := by
  decide +kernel

/-- The other forms: the longest payload, implicit-header mode, no receive callback, latched edges, another configuration. -/
theorem witness_SendPacketCompletes_implicit :
    let s := sending 251
      { booted with
        hdr := .implicit, rxcb := false, pendRx := true, pendTx := true
        cfg := { defaultConfig with statuses := { defaultStatuses with ok := 0x80 }, opmodeStdby := 0x41 } }
    251 = (List.replicate 251 (7 : Byte)).length ∧ 251 ≤ 251 ∧ s.hupc = .idle ∧ s.iupc = .idle ∧ s.drv = .ready ∧ s.lock = .free ∧
    Regular s ∧ Live s ∧ s.txcb = true ∧ (s.cfg.opmodeLongRange ||| s.cfg.opmodeTx).extractLsb' 0 3 = 3 ∧
    s.cfg.dio0MapTxDone.extractLsb' 6 2 = 1 ∧ (0x08 : Byte) = targetReg s.env s.cfg.regs.irqFlags ||| 0x08 ∧
    flagSet 0x08 s.cfg.irqTxDone = true ∧ (0x72 : Byte) = targetReg s.env s.cfg.regs.modemConfig1 ∧
    s.env.script = List.replicate (20 + 251) Turn.host ++ [Turn.txComplete, Turn.dispatch true] ++
      List.replicate (11 + (if s.hdr = .explicit then 0 else 1) + (if s.rxcb then 1 else 0)) Turn.irq ++
      List.replicate 2 Turn.host ++ [Turn.edge] := by
  decide +kernel

/-- The booted block with moves laid down for one SEND_PACKET of no byte that times out. -/
def timingOut : State :=
  { booted with env := { booted.env with
      script := List.replicate 20 Turn.host ++ List.replicate 50 Turn.tick ++ List.replicate 2 Turn.host ++ [Turn.edge] } }

theorem witness_SendPacketTimesOut :
    let s := timingOut
    0 = ([] : List Byte).length ∧ 0 ≤ 251 ∧ s.hupc = .idle ∧ s.iupc = .idle ∧ s.drv = .ready ∧ s.lock = .free ∧
    Regular s ∧ Live s ∧
    s.env.script = List.replicate (19 + 0 + (if s.txcb then 1 else 0)) Turn.host ++
      List.replicate s.cfg.pollMax.toNat Turn.tick ++ List.replicate 2 Turn.host ++ [Turn.edge] := by
  decide +kernel

theorem witness_DispatchRule :
    (booted.iupc = .idle ∧ ({ booted with pendRx := true } : State).pendRx = true ∧
        ({ booted with pendRx := true } : State).pendTx = false) ∧
      (({ booted with pendTx := true } : State).pendTx = true ∧ ({ booted with pendTx := true } : State).pendRx = false) ∧
      (booted.pendRx = false ∧ booted.pendTx = false) := by
  decide +kernel

/-- The booted block entering a service, its target answering `bytes`. -/
def serving (u : IUpc) (bytes : List Byte) : State := { answering bytes booted with iupc := u }

theorem witness_ReceiveServiceStoresPacket :
    let raw : List Byte := [0x10, 0x20, 0x30, 0x01, 0x7A]
    let s := serving (.isrRx .r1) ([0x40, 0, 0, 0, 5] ++ raw ++ [0x64, 0x28] ++ [0, 0] ++ [9])
    s.iupc = .isrRx .r1 ∧ s.lock = .free ∧ s.rxcb = true ∧ s.rxbuf.length = 255 ∧
    flagSet 0x40 s.cfg.irqRxDone = true ∧ flagSet 0x40 (s.cfg.irqCrcError ||| s.cfg.irqRxTimeout) = false ∧
    5 = raw.length ∧ 4 < 5 ∧ 5 ≤ 255 ∧ s.env.kind = .arbitrary ∧
    s.env.answers = [0x40, 0, 0, 0, BitVec.ofNat 8 5] ++ raw ++ [0x64, 0x28] ++ [0, 0] ++ [9] ∧
    ([0, 0] : List Byte).length = (if s.hdr = .explicit then 2 else 4) ∧ (0 : Byte) = ([0, 0] : List Byte).getD 0 0 := by
  decide +kernel

theorem witness_MalformedFrameLeavesSlot :
    let raw : List Byte := [1, 2, 3, 4]
    let s := serving (.isrRx .r1) ([0x40, 0, 0, 0, 4] ++ raw ++ [0, 0] ++ [9])
    s.iupc = .isrRx .r1 ∧ s.lock = .free ∧ s.rxcb = true ∧ s.rxbuf.length = 255 ∧
    flagSet 0x40 s.cfg.irqRxDone = true ∧ flagSet 0x40 (s.cfg.irqCrcError ||| s.cfg.irqRxTimeout) = false ∧
    4 = raw.length ∧ 4 ≤ 4 ∧ s.env.kind = .arbitrary ∧
    s.env.answers = [0x40, 0, 0, 0, BitVec.ofNat 8 4] ++ raw ++ [0, 0] ++ [9] ∧
    ([0, 0] : List Byte).length = (if s.hdr = .explicit then 2 else 4) ∧ (0 : Byte) = ([0, 0] : List Byte).getD 0 0 := by
  decide +kernel

/-- No byte at all, in implicit-header mode. -/
theorem witness_MalformedFrameLeavesSlot_implicit :
    let s := { serving (.isrRx .r1) ([0x40, 0, 0, 0, 0] ++ [] ++ [0x73, 0, 0, 0] ++ [9]) with hdr := .implicit }
    s.iupc = .isrRx .r1 ∧ s.lock = .free ∧ s.rxcb = true ∧ s.rxbuf.length = 255 ∧
    flagSet 0x40 s.cfg.irqRxDone = true ∧ flagSet 0x40 (s.cfg.irqCrcError ||| s.cfg.irqRxTimeout) = false ∧
    0 = ([] : List Byte).length ∧ 0 ≤ 4 ∧ s.env.kind = .arbitrary ∧
    s.env.answers = [0x40, 0, 0, 0, BitVec.ofNat 8 0] ++ [] ++ [0x73, 0, 0, 0] ++ [9] ∧
    ([0x73, 0, 0, 0] : List Byte).length = (if s.hdr = .explicit then 2 else 4) ∧
    (0x73 : Byte) = ([0x73, 0, 0, 0] : List Byte).getD 0 0 := by
  decide +kernel

/-- Receive service: reasons 1 and 2. -/
theorem witness_AnomalousServiceReports :
    let s := serving (.isrRx .r1) [0x20, 0]
    let u := serving (.isrRx .r1) [0x60, 0]
    s.lock = .free ∧ s.env.kind = .arbitrary ∧ s.env.answers = [0x20, 0] ++ [] ∧ s.iupc = .isrRx .r1 ∧
    flagSet 0x20 s.cfg.irqRxDone = false ∧
    u.lock = .free ∧ u.env.kind = .arbitrary ∧ u.env.answers = [0x60, 0] ++ [] ∧ u.iupc = .isrRx .r1 ∧
    flagSet 0x60 u.cfg.irqRxDone = true ∧ flagSet 0x60 (u.cfg.irqCrcError ||| u.cfg.irqRxTimeout) = true := by
  decide +kernel

/-- Both services: reason 3. -/
theorem witness_AnomalousServiceReports_noCallback :
    let s := { serving (.isrRx .r1) [0x40, 0] with rxcb := false }
    let u := { serving (.isrTx .t1) [0x08, 0] with txcb := false }
    s.lock = .free ∧ s.env.kind = .arbitrary ∧ s.env.answers = [0x40, 0] ++ [] ∧ s.iupc = .isrRx .r1 ∧
    flagSet 0x40 s.cfg.irqRxDone = true ∧ flagSet 0x40 (s.cfg.irqCrcError ||| s.cfg.irqRxTimeout) = false ∧
    s.rxcb = false ∧
    u.lock = .free ∧ u.env.kind = .arbitrary ∧ u.env.answers = [0x08, 0] ++ [] ∧ u.iupc = .isrTx .t1 ∧
    flagSet 0x08 u.cfg.irqTxDone = true ∧ u.txcb = false := by
  decide +kernel

/-- Transmit service: reason 1. -/
theorem witness_AnomalousServiceReports_transmit :
    let s := serving (.isrTx .t1) [0x40, 0]
    s.lock = .free ∧ s.env.kind = .arbitrary ∧ s.env.answers = [0x40, 0] ++ [] ∧ s.iupc = .isrTx .t1 ∧
    flagSet 0x40 s.cfg.irqTxDone = false := by
  decide +kernel

theorem witness_TransmitServiceSetsDone :
    let s := serving (.isrTx .t1) ([0x08, 0] ++ [0, 0] ++ [9])
    s.iupc = .isrTx .t1 ∧ s.lock = .free ∧ s.txcb = true ∧ flagSet 0x08 s.cfg.irqTxDone = true ∧ s.env.kind = .arbitrary ∧
    s.env.answers = [0x08, 0] ++ [0, 0] ++ [9] ∧
    ([0, 0] : List Byte).length = 1 + (if s.hdr = .explicit then 0 else 2) + (if s.rxcb then 1 else 0) ∧
    (0 : Byte) = ([0, 0] : List Byte).getD 0 0 := by
  decide +kernel

theorem witness_TransmitServiceSetsDone_detach :
    let s := { serving (.isrTx .t5) [] with armed := .txDone, lock := .heldByIrq }
    s.iupc = .isrTx .t5 ∧ (turn .irq s).armed ≠ s.armed := by
  decide +kernel

theorem witness_WaitingMovesChangeNothing_host :
    ({ booted with hupc := .sendPacket 1 2 0 .s3, lock := .heldByIrq } : State).hupc = .sendPacket 1 2 0 .s3 ∧
      ({ booted with hupc := .sendPacket 1 2 0 .s3, lock := .heldByIrq } : State).lock ≠ .free := by
  decide +kernel

theorem witness_WaitingMovesChangeNothing_irq :
    ({ booted with iupc := .isrRx .r1, lock := .heldByHost } : State).iupc = .isrRx .r1 ∧
      ({ booted with iupc := .isrRx .r1, lock := .heldByHost } : State).lock ≠ .free := by
  decide +kernel

/-- A service past its lock under ICTX_PREEMPTS. -/
def preempting : State :=
  { booted with cfg := { defaultConfig with ictxPreempts := true }, iupc := .isrTx .d1, hupc := .attach }

theorem witness_WaitingMovesChangeNothing_preempts :
    preempting.cfg.ictxPreempts = true ∧ preempting.iupc ≠ .idle ∧
      (preempting.iupc = .isrRx .r1 ∨ preempting.iupc = .isrTx .t1 → preempting.lock = .free) := by
  decide +kernel

/-- A service at its first step with the lock Free. -/
theorem witness_WaitingMovesChangeNothing_preempts_entry :
    let s := { preempting with iupc := .isrRx .r1 }
    s.cfg.ictxPreempts = true ∧ s.iupc ≠ .idle ∧ (s.iupc = .isrRx .r1 ∨ s.iupc = .isrTx .t1 → s.lock = .free) ∧
      s.iupc = .isrRx .r1 := by
  decide +kernel

theorem witness_WaitingMovesChangeNothing_tick (src dst : Byte) (n : Nat) :
    preempting.hupc ≠ .sendPacket src dst n .s15 ∧ preempting.hupc ≠ .sendPacket src dst n .s15Await :=
  ⟨nofun, nofun⟩

/-- The poll loop: awaiting a tick, before the last test that goes on, and after it. -/
theorem witness_WaitingMovesChangeNothing_poll :
    let s := { booted with hupc := .sendPacket 1 2 0 .s15Await }
    let u := { booted with hupc := .sendPacket 1 2 0 .s15, pcnt := booted.cfg.pollMax - 1 }
    let v := { booted with hupc := .sendPacket 1 2 0 .s15, pcnt := booted.cfg.pollMax }
    s.hupc = .sendPacket 1 2 0 .s15Await ∧ hostBlocked s = false ∧
      u.hupc = .sendPacket 1 2 0 .s15 ∧ hostBlocked u = false ∧ pollAgain u = true ∧
      v.hupc = .sendPacket 1 2 0 .s15 ∧ hostBlocked v = false ∧ pollAgain v = false := by
  decide +kernel

/-- A sender with its moves laid down, and a receiver whose target hands it the sender's frame. -/
def roundTripSender : State :=
  { booted with env := { booted.env with script := List.replicate (19 + 1 + (if booted.txcb then 1 else 0)) .host } }
/-- The frame of one payload byte. -/
def roundTripRaw : List Byte := [0x0A, 0x0B, 0x01, 0x01, 0x7A]
/-- The receiver. -/
def roundTripReceiver : State :=
  serving (.isrRx .r1) ([0x40, 0, 0, 0, BitVec.ofNat 8 (4 + 1)] ++ roundTripRaw ++ [0x64, 0x28] ++ [0, 0] ++ [])

theorem witness_PacketRoundTrip :
    1 = ([0x7A] : List Byte).length ∧ 1 ≤ 1 ∧ 1 ≤ 251 ∧
      roundTripSender.hupc = .idle ∧ roundTripSender.iupc = .idle ∧ roundTripSender.drv = .ready ∧
      roundTripSender.lock = .free ∧ Regular roundTripSender ∧ Live roundTripSender ∧
      roundTripSender.env.script = List.replicate (19 + 1 + (if roundTripSender.txcb then 1 else 0)) .host ∧
      roundTripReceiver.iupc = .isrRx .r1 ∧ roundTripReceiver.lock = .free ∧ roundTripReceiver.rxcb = true ∧
      roundTripReceiver.rxbuf.length = 255 ∧ roundTripReceiver.env.kind = .arbitrary ∧
      flagSet 0x40 roundTripReceiver.cfg.irqRxDone = true ∧
      flagSet 0x40 (roundTripReceiver.cfg.irqCrcError ||| roundTripReceiver.cfg.irqRxTimeout) = false ∧
      roundTripReceiver.env.answers =
        [0x40, 0, 0, 0, BitVec.ofNat 8 (4 + 1)] ++ roundTripRaw ++ [0x64, 0x28] ++ [0, 0] ++ [] ∧
      ([0, 0] : List Byte).length = (if roundTripReceiver.hdr = .explicit then 2 else 4) := by
  decide +kernel

/-- The frame the receiver gets is the one the sender's target then holds. -/
theorem witness_PacketRoundTrip_frame :
    (nextOf (exec (.sendPacket 0x0A 0x0B [0x7A]) roundTripSender)).map
      (fun t => (List.range (4 + 1)).map fun j => t.env.tmem.read (256 + j)) = some roundTripRaw := by
  decide +kernel

/-- The booted state, and the state at a service's entry, meet the invariant. -/
theorem inv_booted_at (u : IUpc) (hu : u = .idle ∨ u = .isrRx .r1) : Inv { booted with iupc := u } := by
  rcases hu with rfl | rfl
  all_goals
    exact
      { hostLock := by decide +kernel, irqLock := by decide +kernel, pins := by decide +kernel
        initPins := by decide +kernel, driver := by decide +kernel, header := by decide +kernel
        initHeader := by decide +kernel, slotCount := by decide +kernel, slotRssi := by decide +kernel
        parsed := by decide +kernel, rssiRange := nofun, poll := by decide +kernel, await := nofun
        csIdle := by decide +kernel, modeReachable := by decide +kernel, sleeping := by decide +kernel
        buffers := by decide +kernel, frame := nofun, writeLoop := by decide +kernel
        writeCapacity := by decide +kernel, readLoop := nofun, memory := by decide +kernel }

theorem witness_EveryStepKeepsInv :
    Inv (framed [0x42, 0x00]) ∧ ∃ t, step (framed [0x42, 0x00]) = .next t := by
  have h := inv_booted_at .idle (.inl rfl)
  refine ⟨⟨h.1, h.2, h.3, h.4, h.5, h.6, h.7, h.8, h.9, h.10, h.11, h.12, h.13, h.14, h.15, h.16, h.17, h.18, h.19,
    h.20, h.21, h.22⟩, hostRead 0x42 booted, ?_⟩
  have hadm : (framed [0x42, 0x00]).cfg.admitted = true := test_default_admitted
  exact (if_pos hadm : ifAdmitted _ _ = _)

theorem witness_ServiceIsBounded :
    Inv { booted with iupc := .isrRx .r1 } ∧ ({ booted with iupc := .isrRx .r1 } : State).iupc ≠ .idle ∧
      ({ booted with iupc := .isrRx .r1 } : State).lock ≠ .heldByHost :=
  ⟨inv_booted_at _ (.inr rfl), by decide +kernel, by decide +kernel⟩

theorem witness_ModeChangesWithItsWrite :
    hostModeStep defaultConfig (.sendPacket 1 2 0 .s12) = some (.tx, 0x83) ∧
      hostBlocked { booted with hupc := .sendPacket 1 2 0 .s12 } = false ∧
      irqModeStep defaultConfig (.isrTx (.d2 .v6)) = some (.rxContinuous, 0x85) ∧
      hostModeStep defaultConfig .attach = none ∧ irqModeStep defaultConfig .idle = none ∧
      Turn.edge ≠ .host ∧ Turn.edge ≠ .irq := by
  decide +kernel

theorem witness_WritersOfState :
    (turn .host { booted with hupc := .sendPacket 1 2 0 .s1 }).seq ≠ booted.seq ∧
      (turn .irq { booted with iupc := .isrTx .d1 }).txDone ≠ booted.txDone ∧
      (turn .edge booted).pendRx ≠ booted.pendRx ∧
      (turn .edge { booted with armed := .txDone }).pendTx ≠ booted.pendTx ∧
      (turn .host { booted with cs := .low, hupc := .attach }).cs = .low ∧
      (turn .host { State.reset with hupc := .resetPins .s1 }).cs ≠ State.reset.cs ∧
      (turn .host { booted with hupc := .sendPacket 1 2 0 .s12 }).mode ≠ booted.mode := by
  decide +kernel

end Sys2Proof.Machine.Tests
end

section
/-!
What block reset gives (10_state.md R46), and that the edge rule does nothing there.
-/
namespace Sys2Proof.Proofs
open Sys2Proof.Machine

/-- R244: with no handler attached the edge is lost, whatever else the state holds. -/
theorem turn_edge_of_unarmed {s : State} (h : s.armed = .none) : turn .edge s = s := by
  obtain ⟨hrx, -⟩ | ⟨htx, -⟩ | ⟨-, hlost⟩ := edgeRule_cases s
  · rw [h] at hrx; contradiction
  · rw [h] at htx; contradiction
  · exact hlost

/-- Neither service is armed after block reset (R36, R46). -/
@[simp] theorem reset_armed : State.reset.armed = .none := rfl

/-- Settles O57: the registers by the definition of the reset state, the edge by the rule for a state with no handler. -/
theorem resetValues : Obligations.ResetValues :=
  have hedge : turn .edge State.reset = State.reset := turn_edge_of_unarmed reset_armed
  ⟨rfl, rfl, rfl, rfl, rfl, rfl, rfl, rfl, reset_armed, rfl, rfl, rfl, rfl, rfl, rfl, rfl, rfl, rfl, rfl, hedge⟩

end Sys2Proof.Proofs
end

section
/-!
What RESET_PINS does to the reference target (20_memory.md R81, 40_transport.md R140).
-/
namespace Sys2Proof.Proofs
open Sys2Proof.Machine

/-! ### Writing a list of registers -/

/-- A list of register writes leaves every address it does not name. -/
theorem writeRegs_read_of_notMem {m : Memory} {l : List (RegNum × Byte)} (hwf : m.wf = true) {a : Nat}
    (ha : a ∉ (l.map Prod.fst).map regAddress) : (writeRegs m l).read a = m.read a := by
  induction l generalizing m with
  | nil => rfl
  | cons p rest ih =>
    simp only [List.map_cons, List.mem_cons, not_or] at ha
    obtain ⟨hne, hrest⟩ := ha
    rw [writeRegs, ih (Memory.wf_write _ _ hwf) hrest, Memory.read_write hwf, if_neg hne]

/-- A list of writes of pairwise distinct registers leaves each register at its value. -/
theorem writeRegs_read_of_mem {m : Memory} {l : List (RegNum × Byte)} (hwf : m.wf = true)
    (hn : (l.map Prod.fst).Nodup) : ∀ p ∈ l, (writeRegs m l).read (regAddress p.1) = p.2 := by
  induction l generalizing m with
  | nil => nofun
  | cons q rest ih =>
    rw [List.map_cons, List.nodup_cons] at hn
    obtain ⟨hq, hrest⟩ := hn
    have hwf' : (m.write (regAddress q.1) q.2).wf = true := Memory.wf_write _ _ hwf
    rw [List.forall_mem_cons]
    refine ⟨?_, ih hwf' hrest⟩
    have hlater : regAddress q.1 ∉ (rest.map Prod.fst).map regAddress := by
      rwa [List.mem_map_of_injective fun _ _ => regAddress_inj.1]
    rw [writeRegs, writeRegs_read_of_notMem hwf' hlater, Memory.read_write hwf, if_pos rfl]

/-! ### Target reset -/

/-- The registers with a reset value are pairwise distinct: R81 lists them in the order of the register map. -/
theorem resetRegs_nodup {c : Config} (h : c.admitted = true) : ((resetRegs c.regs).map Prod.fst).Nodup := by
  have hsub : ((resetRegs c.regs).map Prod.fst).Sublist c.regs.toList :=
    .cons _ <| .cons_cons _ <| .cons_cons _ <| .cons_cons _ <| .cons_cons _ <| .cons_cons _ <|
    .cons_cons _ <| .cons _ <| .cons_cons _ <| .cons _ <| .cons _ <| .cons _ <|
    .cons _ <| .cons _ <| .cons _ <| .cons_cons _ <| .cons_cons _ <| .cons _ <|
    .cons_cons _ <| .cons_cons _ <| .cons _ <| .cons_cons _ <| .cons _ <| .cons_cons _ <| .slnil
  exact hsub.nodup (regs_nodup h)

/-- A reset of the reference target rebuilds its memory from the table of R81 alone. -/
theorem resetTarget_tmem {r : RegMap} {e : Env} (hk : e.kind = .reference) :
    (resetTarget r e).tmem = writeRegs [] (resetRegs r) := by
  simp [resetTarget, hk]

/-- After a reset of the reference target each register of the table holds its value. -/
theorem targetReg_resetTarget {c : Config} {e : Env} (h : c.admitted = true) (hk : e.kind = .reference) :
    ∀ p ∈ resetRegs c.regs, targetReg (resetTarget c.regs e) p.1 = p.2 := by
  intro p hp
  rw [targetReg, resetTarget_tmem hk]
  exact writeRegs_read_of_mem rfl (resetRegs_nodup h) p hp

/-- After a reset of the reference target every address outside the table reads 0x00. -/
theorem read_resetTarget_of_notMem {r : RegMap} {e : Env} (hk : e.kind = .reference) {a : Nat}
    (ha : a ∉ ((resetRegs r).map Prod.fst).map regAddress) : (resetTarget r e).tmem.read a = 0x00 := by
  rw [resetTarget_tmem hk, writeRegs_read_of_notMem rfl ha]
  rfl

/-! ### RESET_PINS -/

/-- Before each of its six steps RESET_PINS is in progress and ICTX does not keep it from stepping (R73, R140). -/
theorem resetPins_running {s : State} (hb : hostBlocked s = false) (j : Nat) (hj : j < 6) :
    (hostStep^[j] (acceptAt (.resetPins .s1) s)).hupc ≠ .idle ∧
      hostBlocked (hostStep^[j] (acceptAt (.resetPins .s1) s)) = false := by
  interval_cases j
  all_goals exact ⟨nofun, (hostBlocked_congr rfl rfl rfl).trans hb⟩

/-- RESET_PINS granted its six moves: the whole next state (R140). -/
theorem exec_resetPins {rest : List Turn} {s : State} (hfree : PortFree s) (hg : Granted 6 rest s) :
    exec .resetPins s =
      .next { s with
        hupc := .idle, cs := .high, rst := .high, pinsReady := true
        env := { resetTarget s.cfg.regs s.env with script := rest }
        out := [.response [s.cfg.statuses.ok], .rstPin .high, .rstPin .low, .csPin .high] ++ s.out } :=
  runCommand_hosts (k := 6) hfree.1 hg (resetPins_running hfree.2) rfl

/-- Settles O13: RESET_PINS ends in the target reset, whose table has pairwise distinct registers in an admitted
configuration. -/
theorem targetResetValues : Obligations.TargetResetValues := by
  intro rest s hfree hadm hk hg
  refine ⟨_, exec_resetPins hfree hg, ?_⟩
  have hregs : ∀ p ∈ resetRegs s.cfg.regs, targetReg (resetTarget s.cfg.regs s.env) p.1 = p.2 :=
    targetReg_resetTarget hadm hk
  simp only [resetRegs, List.forall_mem_cons] at hregs
  obtain ⟨hop, hmsb, hmid, hlsb, hpa, hlna, htx, hm1, hm2, hpre, hlen, hsync, hver, -⟩ := hregs
  exact ⟨hop, hmsb, hmid, hlsb, hpa, hlna, htx, hm1, hm2, hpre, hlen, hsync, hver,
    fun _ ha => read_resetTarget_of_notMem hk ha⟩

end Sys2Proof.Proofs
end

section
/-!
The bandwidth code (30_encoding.md R113): the search for the least bin, and the codes it gives.
-/
namespace Sys2Proof.Proofs
open Sys2Proof.Machine

/-! ### The search for a bin -/

/-- The search stops at a bin that holds the operand when every earlier bin is too small. -/
theorem binIndex_of_least {w : Nat} {bins : List Nat} {k : Nat} (i : Nat) (hk : k < bins.length)
    (hfits : w ≤ bins.getD k 0) (hleast : ∀ j, j < k → bins.getD j 0 < w) : binIndex w bins i = some (i + k) := by
  induction bins generalizing i k with
  | nil => simp at hk
  | cons bin rest ih =>
    cases k with
    | zero => exact if_pos hfits
    | succ k =>
      have hsmall : bin < w := hleast 0 k.succ_pos
      have hrest : binIndex w rest (i + 1) = some (i + 1 + k) :=
        ih (i + 1) (Nat.lt_of_succ_lt_succ hk) hfits fun j hj => hleast (j + 1) (Nat.succ_lt_succ hj)
      rw [binIndex, if_neg (Nat.not_le.2 hsmall), hrest, Nat.add_assoc, Nat.add_comm 1]

/-- The search finds no bin when every bin is too small. -/
theorem binIndex_eq_none {w : Nat} {bins : List Nat} (i : Nat)
    (hsmall : ∀ j, j < bins.length → bins.getD j 0 < w) : binIndex w bins i = none := by
  induction bins generalizing i with
  | nil => rfl
  | cons bin rest ih =>
    have hbin : bin < w := hsmall 0 rest.length.succ_pos
    rw [binIndex, if_neg (Nat.not_le.2 hbin)]
    exact ih (i + 1) fun j hj => hsmall (j + 1) (Nat.succ_lt_succ hj)

/-! ### The code -/

/-- The code of the least bin that holds the operand is its index. -/
theorem bwCode_of_least {c : Config} {w : Hz} {k : Nat} (hk : k < c.bwBins.length)
    (hfits : w.toNat ≤ c.bwBins.getD k 0) (hleast : ∀ j, j < k → c.bwBins.getD j 0 < w.toNat) :
    bwCode c w = BitVec.ofNat 4 k := by
  rw [bwCode, binIndex_of_least 0 hk hfits hleast, Nat.zero_add]

/-- The code of an operand above every bin is the fallback. -/
theorem bwCode_fallback {c : Config} {w : Hz} (hsmall : ∀ j, j < c.bwBins.length → c.bwBins.getD j 0 < w.toNat) :
    bwCode c w = c.bwFallbackCode := by
  rw [bwCode, binIndex_eq_none 0 hsmall]

/-- The code as a function of the search's result. -/
theorem bwCode_eq_elim (c : Config) (w : Hz) :
    bwCode c w = (binIndex w.toNat c.bwBins 0).elim c.bwFallbackCode (BitVec.ofNat 4) := by
  unfold bwCode
  cases binIndex w.toNat c.bwBins 0 <;> rfl

/-- One bin of the search, under the code that is read off its result. -/
theorem binIndex_cons_elim (w bin : Nat) (rest : List Nat) (i : Nat) (fallback : BitVec 4) (f : Nat → BitVec 4) :
    (binIndex w (bin :: rest) i).elim fallback f =
      if w ≤ bin then f i else (binIndex w rest (i + 1)).elim fallback f := by
  rw [binIndex, apply_ite (Option.elim · fallback f), Option.elim_some]

/-- The codes of the default bins. The bin of 250000 Hz needs no comparison of its own: its index, 8, is the default
fallback too (R9, R113). -/
theorem bwCode_default (w : Hz) : bwCode defaultConfig w =
    if w ≤ 7800 then 0 else if w ≤ 10400 then 1 else if w ≤ 15600 then 2 else if w ≤ 20800 then 3
    else if w ≤ 31250 then 4 else if w ≤ 41700 then 5 else if w ≤ 62500 then 6 else if w ≤ 125000 then 7 else 8 := by
  have hlast : (if w.toNat ≤ 250000 then BitVec.ofNat 4 8 else (binIndex w.toNat [] 9).elim 8 (BitVec.ofNat 4)) = 8 :=
    ite_self _
  rw [bwCode_eq_elim]
  simp only [defaultConfig, defaultBwBins, binIndex_cons_elim, hlast]
  rfl

/-- Settles O29: the search finds the least bin, or none; the default bins are searched in order. -/
theorem bandwidthCode : Obligations.BandwidthCode :=
  ⟨fun _ _ hlen =>
    ⟨fun _ hi hfits hleast => bwCode_of_least (hlen ▸ hi) hfits hleast,
      fun hsmall => bwCode_fallback (hlen ▸ hsmall)⟩,
    bwCode_default⟩

end Sys2Proof.Proofs
end

section
/-!
Which messages decode (30_encoding.md R101 to R103, R118), format by format, and the answer to one that does not.
-/
namespace Sys2Proof.Proofs
open Sys2Proof.Machine

/-! ### When each format accepts its operand bytes

A fixed format asks for its number of bytes, CMD-V and CMD-S for the number their length byte gives (R103), and a boolean
byte must be one. -/

/-- A boolean operand byte is bad exactly if it does not decode (R102). -/
theorem not_decodeBool_isOk (b : Byte) : (b != 0 && b != 1) = !(decodeBool b).isOk := by
  by_cases h0 : b = 0
  · subst h0; rfl
  · by_cases h1 : b = 1
    · subst h1; rfl
    · rw [decodeBool, if_neg h0, if_neg h1, bne_iff_ne.2 h0, bne_iff_ne.2 h1]
      rfl

theorem formatCmd0_isOk (op : Byte) (i : Instr) (args : List Byte) :
    (formatCmd0 op i args).isOk = (args.length == 0) := by
  cases args <;> rfl

theorem formatCmdB1_isOk (op : Byte) (f : Byte → Instr) (args : List Byte) :
    (formatCmdB1 op f args).isOk = (args.length == 1) := by
  rcases args with _ | ⟨b, _ | ⟨b', rest⟩⟩ <;> rfl

theorem formatCmdBool_isOk (op : Byte) (f : Bool → Instr) (args : List Byte) :
    (formatCmdBool op f args).isOk = (args.length == 1 && (decodeBool (args.getD 0 0)).isOk) := by
  rcases args with _ | ⟨b, _ | ⟨b', rest⟩⟩
  · rfl
  · change ((decodeBool b).map f).isOk = (decodeBool b).isOk
    cases decodeBool b <;> rfl
  · rfl

theorem formatCmdB2_isOk (op : Byte) (f : BitVec 16 → Instr) (args : List Byte) :
    (formatCmdB2 op f args).isOk = (args.length == 2) := by
  rcases args with _ | ⟨b1, _ | ⟨b0, _ | ⟨b', rest⟩⟩⟩ <;> rfl

theorem formatCmdW4_isOk (op : Byte) (f : BitVec 32 → Instr) (args : List Byte) :
    (formatCmdW4 op f args).isOk = (args.length == 4) := by
  rcases args with _ | ⟨b3, _ | ⟨b2, _ | ⟨b1, _ | ⟨b0, _ | ⟨b', rest⟩⟩⟩⟩⟩ <;> rfl

theorem formatCmdP16_isOk (op : Byte) (args : List Byte) :
    (formatCmdP16 op args).isOk =
      (args.length == 16 && ((decodeBool (args.getD 13 0)).isOk && (decodeBool (args.getD 15 0)).isOk)) := by
  unfold formatCmdP16
  split
  · next implicit sync crc =>
    change _ = ((decodeBool implicit).isOk && (decodeBool crc).isOk)
    cases decodeBool implicit <;> cases decodeBool crc <;> rfl
  · next hshape =>
    have hlen : args.length ≠ 16 := by
      intro h
      match args, h with
      | [_, _, _, _, _, _, _, _, _, _, _, _, _, _, _, _], _ => exact hshape _ _ _ _ _ _ _ _ _ _ _ _ _ _ _ _ rfl
    rw [beq_false_of_ne hlen, Bool.false_and]
    rfl

/-- The outcome of a check, read off its condition. -/
theorem isOk_ite (c : Prop) [Decidable c] (i : Instr) (e : DecodeError) :
    (if c then Except.ok i else .error e).isOk = decide c := by
  split
  · next h => exact (decide_eq_true h).symm
  · next h => exact (decide_eq_false h).symm

theorem formatCmdV_isOk (op : Byte) (args : List Byte) :
    (formatCmdV op args).isOk = ((op :: args).length == 2 + (args.getD 0 0).toNat) := by
  cases args with
  | nil => exact (beq_false_of_ne (by simp)).symm
  | cons n data =>
    rw [formatCmdV, isOk_ite, beq_eq_decide, decide_eq_decide]
    simp only [List.length_cons, List.getD_cons_zero]
    omega

theorem formatCmdS_isOk (op : Byte) (args : List Byte) :
    (formatCmdS op args).isOk = ((op :: args).length == 4 + (args.getD 2 0).toNat) := by
  rcases args with _ | ⟨src, _ | ⟨dst, _ | ⟨n, payload⟩⟩⟩
  · exact (beq_false_of_ne (by simp)).symm
  · exact (beq_false_of_ne (by simp)).symm
  · exact (beq_false_of_ne (by simp)).symm
  · rw [formatCmdS, isOk_ite, beq_eq_decide, decide_eq_decide]
    simp only [List.length_cons, List.getD_cons_zero, List.getD_cons_succ]
    omega

/-! ### When a command accepts its message -/

/-- The places of the boolean operand bytes of each command's message (R101): `booleanPlaces` by the command in place of
its opcode. -/
def commandBooleans : Command → List Nat
  | .init => [14, 16]
  | .onReceive | .onTransmit | .enableCrc | .implicitHeader => [1]
  | _ => []

/-- Where the opcodes are pairwise distinct, the places of an opcode are those of the command it names. -/
theorem booleanPlaces_code {m : OpcodeMap} (h : m.distinct = true) (k : Command) :
    booleanPlaces m (m.code k) = commandBooleans k := by
  have hinit : m.code k = m.init ↔ k = .init := ⟨m.code_inj h (k := .init), fun hk => hk ▸ rfl⟩
  have hflag : m.code k ∈ [m.onReceive, m.onTransmit, m.enableCrc, m.implicitHeader] ↔
      k ∈ [Command.onReceive, .onTransmit, .enableCrc, .implicitHeader] :=
    List.mem_map_of_injective (f := m.code) (fun _ _ => m.code_inj h)
      (l := [.onReceive, .onTransmit, .enableCrc, .implicitHeader])
  simp only [booleanPlaces, hinit, hflag]
  cases k <;> rfl

/-- A command accepts the operand bytes exactly if its message has the length of R101 and every boolean byte is one: row by
row of the table, by what its format accepts. -/
theorem decodeOperands_isOk (op : Byte) (k : Command) (args : List Byte) :
    (decodeOperands op k args).isOk =
      ((op :: args).length == commandLength (op :: args) k &&
        (commandBooleans k).all fun p => (decodeBool ((op :: args).getD p 0)).isOk) := by
  cases k <;>
    simp [decodeOperands, commandLength, commandBooleans, formatCmd0_isOk, formatCmdB1_isOk, formatCmdBool_isOk,
      formatCmdB2_isOk, formatCmdW4_isOk, formatCmdP16_isOk, formatCmdV_isOk, formatCmdS_isOk]

/-! ### The table of R101 and the decoder -/

/-- The predicate read off the table of R101 says exactly what does not decode (R118). -/
theorem illegalMessage_eq_not_isOk {m : OpcodeMap} (h : m.distinct = true) (bytes : List Byte) :
    illegalMessage m bytes = !(decode m .command bytes).isOk := by
  cases bytes with
  | nil => rfl
  | cons op args =>
    cases hc : commandOf m op with
    | none =>
      have hunknown : op ∉ m.toList := commandOf_eq_none.1 hc
      simp [illegalMessage, decode, decodeCommand, hc, hunknown, Except.isOk, Except.toBool]
    | some k =>
      obtain rfl := code_of_commandOf hc
      have hknown : m.toList.contains (m.code k) = true :=
        List.contains_iff_mem.2 (m.toList_eq ▸ List.mem_map_of_mem (mem_commands k))
      have hlen : messageLength m (m.code k :: args) = commandLength (m.code k :: args) k := by
        simp [messageLength, hc]
      have hbool : badBoolean m (m.code k :: args) =
          !(commandBooleans k).all fun p => (decodeBool ((m.code k :: args).getD p 0)).isOk := by
        simp only [badBoolean, List.getD_cons_zero, booleanPlaces_code h, not_decodeBool_isOk, List.not_all_eq_any_not]
      calc illegalMessage m (m.code k :: args)
        _ = ((m.code k :: args).length != commandLength (m.code k :: args) k || badBoolean m (m.code k :: args)) := by
          simp only [illegalMessage, List.isEmpty_cons, List.getD_cons_zero, hknown, hlen, Bool.not_true, Bool.false_or]
        _ = !(decodeOperands (m.code k) k args).isOk := by rw [decodeOperands_isOk, Bool.not_and, hbool]; rfl
        _ = !(decode m .command (m.code k :: args)).isOk := by rw [decode, decodeCommand_code h]

/-- A decoder's answer is not ok exactly if it is no instruction. -/
theorem not_isOk_iff {r : Except DecodeError Instr} : (!r.isOk) = true ↔ ∀ i, r ≠ .ok i := by
  cases r with
  | error e => exact ⟨fun _ _ => nofun, fun _ => rfl⟩
  | ok i => exact ⟨nofun, fun h => absurd rfl (h i)⟩

/-! ### The answer to an illegal message -/

/-- The step that takes up a submission at a free port (R27). -/
theorem step_submit {s : State} {message : List Byte} {rest : List Turn} (hadm : s.cfg.admitted = true)
    (hframe : s.spiFrame = none) (hidle : s.hupc = .idle) (hscript : s.env.script = .submit message :: rest) :
    step s = submitMessage message (withMoves rest s) := by
  have hturn : nextTurn s = .submit message := by rw [nextTurn, hscript]
  have hafter : afterTurn s = withMoves rest s := by rw [afterTurn, hscript]; rfl
  rw [(step_admitted hadm).2 hframe, hturn, hafter, stepTurn]
  simp [hidle]

/-- A message that does not decode is answered IllegalCommand alone (R118). -/
theorem submitMessage_of_not_decoded {s : State} {message : List Byte} (hidle : s.hupc = .idle)
    (hnone : ∀ i, decode s.cfg.opcodes .command message ≠ .ok i) :
    submitMessage message s = .next (statusAlone s.cfg.statuses.illegalCommand s) := by
  cases hd : decode s.cfg.opcodes .command message with
  | ok i => exact absurd hd (hnone i)
  | error e =>
    rw [submitMessage, hd]
    simp [refuseMessage, respond, statusCode, hidle]

/-- Settles O4: the table and the decoder agree format by format, and the step refuses what does not decode. -/
theorem illegalMessagesRefused : Obligations.IllegalMessagesRefused := by
  intro bytes
  have hiff : ∀ m : OpcodeMap, m.distinct = true →
      (illegalMessage m bytes = true ↔ ∀ i, decode m .command bytes ≠ .ok i) := fun m h => by
    rw [illegalMessage_eq_not_isOk h, not_isOk_iff]
  refine ⟨hiff, fun s rest hillegal hadm hframe hidle hscript => ?_⟩
  have hnone := (hiff _ (Config.opcodes_distinct hadm)).1 hillegal
  exact (step_submit hadm hframe hidle hscript).trans
    (submitMessage_of_not_decoded (s := withMoves rest s) hidle hnone)

end Sys2Proof.Proofs
end

section
/-!
Runs of HCTX's moves (10_state.md R26, R27): what a run puts out, and what its transfers do to the target. A sequence is put
together from one run per step; what an admitted command does is then read off its whole run.
-/
namespace Sys2Proof.Proofs
open Sys2Proof.Machine

/-! ### Traces and the accesses they record -/

/-- Accesses of one list after the other. -/
theorem accesses_append {r : RegMap} {rst : Pin} (l m : List (RegNum × Option Byte)) (e : Env) :
    accesses r rst (l ++ m) e = accesses r rst m (accesses r rst l e) := by
  induction l generalizing e with
  | nil => rfl
  | cons x l ih =>
    obtain ⟨a, _ | v⟩ := x
    · exact ih (targetAfterRead r rst e a)
    · exact ih (targetAfterWrite r rst e a v)

/-- The last write of two lists of accesses is that of the later one, if it has one. -/
theorem lastWrite_append (a : RegNum) (l m : List (RegNum × Option Byte)) :
    lastWrite a (l ++ m) = (lastWrite a m).or (lastWrite a l) := by
  induction l with
  | nil => exact Option.or_none.symm
  | cons x l ih => rw [List.cons_append, lastWrite, ih, lastWrite, Option.or_assoc]

/-- The access of the target that an entry of a trace records (R74): a transfer's register, with the byte of a write. -/
def accessOf : Emitted → Option (RegNum × Option Byte)
  | .rd _ a _ => some (a, none)
  | .wr _ a v => some (a, some v)
  | .diag _ | .response _ | .pin _ => none

/-- Traces one after the other (R72). -/
theorem putOut_trans {s t u : State} {l m : List Emitted} (h : PutOut s t l) (h' : PutOut t u m) :
    PutOut s u (l ++ m) := by
  obtain ⟨new, hout, hnew⟩ := h
  obtain ⟨new', hout', hnew'⟩ := h'
  exact ⟨new' ++ new, by rw [hout', hout, List.append_assoc], by rw [List.map_append, hnew, hnew', List.reverse_append]⟩

/-! ### The block apart from its bus -/

/-- The block without what a transfer touches: CS, the environment and the outputs. -/
def block (s : State) : State := { s with cs := .undriven, env := Env.reset, out := [] }

/-- `BlockIs` compares the blocks. -/
theorem blockIs_iff {t u : State} : BlockIs t u ↔ block t = block u := by
  unfold BlockIs
  exact ⟨fun h => (congrArg block h :),
    fun h => (congrArg (fun w : State => { w with cs := u.cs, env := u.env, out := u.out }) h :)⟩

theorem block_respond (v : Status) (l : List Byte) (s : State) :
    block (respond v l s) = { block s with hupc := .idle } := rfl

/-- A command answered with its status alone at a free port changes nothing else (R14). -/
theorem respond_eq_statusAlone {s : State} (h : s.hupc = .idle) (v : Status) :
    respond v [] s = statusAlone (statusCode s.cfg.statuses v) s := by
  rw [respond, ← h]

/-! ### Runs -/

/-- `k` moves of HCTX, if ICTX does not keep it from stepping, take `s` to `t` with the trace `l`; the target is as the
transfers of `l` leave it, and what decides who steps has not changed (R73). -/
structure HostRun (k : Nat) (s t : State) (l : List Emitted) : Prop where
  runs : hostBlocked s = false → ∀ rest, runScript (List.replicate k .host ++ rest) s = runScript rest t
  putOut : PutOut s t l
  env : t.env = accesses s.cfg.regs s.rst (l.filterMap accessOf) s.env
  cfg : t.cfg = s.cfg
  rst : t.rst = s.rst
  iupc : t.iupc = s.iupc
  lock : t.lock = s.lock

namespace HostRun

/-- No move at all. -/
theorem refl (s : State) : HostRun 0 s s [] := ⟨fun _ _ => rfl, ⟨[], rfl, rfl⟩, rfl, rfl, rfl, rfl, rfl⟩

/-- One step of a command in progress. -/
theorem single {s t : State} {l : List Emitted} (hbusy : s.hupc ≠ .idle) (ht : hostStep s = t) (hout : PutOut s t l)
    (henv : t.env = accesses s.cfg.regs s.rst (l.filterMap accessOf) s.env)
    (hkept : (t.cfg, t.rst, t.iupc, t.lock) = (s.cfg, s.rst, s.iupc, s.lock)) : HostRun 1 s t l := by
  simp only [Prod.mk.injEq] at hkept
  obtain ⟨hcfg, hrst, hiupc, hlock⟩ := hkept
  exact ⟨fun hb rest => ht ▸ runScript_host hbusy hb rest, hout, henv, hcfg, hrst, hiupc, hlock⟩

/-- Runs one after the other. -/
theorem trans {j k : Nat} {s t u : State} {l m : List Emitted} (h : HostRun j s t l) (h' : HostRun k t u m) :
    HostRun (j + k) s u (l ++ m) where
  runs hb rest := by
    have hb' : hostBlocked t = false := (hostBlocked_congr h.cfg h.iupc h.lock).trans hb
    rw [← List.replicate_append_replicate, List.append_assoc, h.runs hb, h'.runs hb']
  putOut := putOut_trans h.putOut h'.putOut
  env := by rw [h'.env, h.cfg, h.rst, h.env, List.filterMap_append, accesses_append]
  cfg := h'.cfg.trans h.cfg
  rst := h'.rst.trans h.rst
  iupc := h'.iupc.trans h.iupc
  lock := h'.lock.trans h.lock

section
variable {k : Nat} {rest : List Turn} {s t : State} {first : HUpc} {l : List Emitted}

/-- A run with its moves counted another way. -/
theorem moves_eq {j : Nat} (h : HostRun j s t l) (hk : j = k) : HostRun k s t l := hk ▸ h

/-- A driver command that is granted the moves of a run to its response completes with it (R27, R149). -/
theorem completes (h : HostRun k (acceptAt first s) t l) (hready : Ready s) (hg : Granted k rest s)
    (hidle : t.hupc = .idle) : runCommand (needsDriver s) (acceptAt first) s = .next (setScript rest t) := by
  obtain ⟨⟨hfree, hb⟩, hdrv⟩ := hready
  rw [needsDriver_ready hdrv, runCommand_admitted hfree, hg, h.runs hb, runScript_idle hidle]

/-- After a run of plain accesses the target's bytes outside their registers are as before. -/
theorem busFrame (h : HostRun k (acceptAt first s) t l) (hr : Regular s)
    (hp : plainAccesses s.cfg.regs (l.filterMap accessOf) = true) (hcs : t.cs = .high) {addrs : List Nat}
    (ha : ∀ x ∈ l.filterMap accessOf, regAddress x.1 ∈ addrs) : BusFrame s (setScript rest t) rest addrs :=
  busFrame_of_accesses _ hr hp hcs (congrArg (fun e : Env => { e with script := rest }) h.env) fun x hx _ => ha x hx

/-- After a run of plain accesses a register holds what the run wrote to it last. -/
theorem stored (h : HostRun k (acceptAt first s) t l) (hr : Regular s)
    (hp : plainAccesses s.cfg.regs (l.filterMap accessOf) = true) {a : RegNum} {v : Byte}
    (ha : lastWrite a (l.filterMap accessOf) = some v) : Stored s (setScript rest t) a v :=
  stored_of_accesses _ hr hp (congrArg (fun e : Env => { e with script := rest }) h.env) ha

end

end HostRun

end Sys2Proof.Proofs
end

section
/-!
RECEIVE (41_mode_control.md R157), in four parts: the first depends on HDR and on the size, the second on the size, the third
on RXCB.
-/
namespace Sys2Proof.Proofs
open Sys2Proof.Machine

/-! ### The header mode of a size -/

theorem wantedHeader_of_size (size : Byte) :
    (if size = 0 then .explicit else .implicit) = wantedHeader (size != 0) := by
  by_cases h : size = 0 <;> simp [wantedHeader, h]

theorem flagBits_of_size (size mask : Byte) : (if size = 0 then 0x00 else mask) = flagBits mask (size != 0) := by
  by_cases h : size = 0 <;> simp [flagBits, h]

/-! ### What the parts do, apart from HUPC -/

/-- v1 and v2: the header mode is set where the tracked one differs. -/
def setHeader (size : Byte) (s : State) : State :=
  if s.hdr = wantedHeader (size != 0) then s else headerMerge (size != 0) (headerRead (size != 0) s)

/-- v3: no step when the size is 0. -/
def setLength (size : Byte) (s : State) : State :=
  if size = 0 then s else hostWrite s.cfg.regs.payloadLength size s

/-- v4 and v5: DIO0 is routed only where a handler is attached. -/
def attachReceive (s : State) : State :=
  if s.rxcb then hostWrite s.cfg.regs.dioMapping1 s.cfg.dio0MapRxDone (armReceive s) else armReceive s

/-- v6. -/
def enterRx (s : State) : State :=
  { hostWrite s.cfg.regs.opMode (modeByte s.cfg s.cfg.opmodeRxCont) s with mode := .rxContinuous }

theorem block_setHeader (size : Byte) (s : State) :
    block (setHeader size s) = { block s with
      hdr := wantedHeader (size != 0)
      hctx := if s.hdr = wantedHeader (size != 0) then s.hctx
        else { s.hctx with
          t := captured s.cfg.regs.modemConfig1 s
          m := mergeField (captured s.cfg.regs.modemConfig1 s) s.cfg.implicitMask
            (flagBits s.cfg.implicitMask (size != 0)) } } := by
  by_cases h : s.hdr = wantedHeader (size != 0)
  · simp only [setHeader, ← h]
    rfl
  · simp only [setHeader, if_neg h]
    rfl

theorem block_setLength (size : Byte) (s : State) : block (setLength size s) = block s := by
  unfold setLength
  split <;> rfl

theorem block_attachReceive (s : State) :
    block (attachReceive s) = { block s with armed := if (block s).rxcb then .rxDone else .none } := by
  unfold attachReceive
  split <;> rfl

theorem block_enterRx (s : State) : block (enterRx s) = { block s with mode := .rxContinuous } := rfl

/-! ### The runs of the parts -/

/-- The transfers of v1 and v2. -/
def headerTrace (size : Byte) (s : State) : List Emitted :=
  if s.hdr = wantedHeader (size != 0) then []
  else [hRd s.cfg.regs.modemConfig1 (captured s.cfg.regs.modemConfig1 s),
    hWr s.cfg.regs.modemConfig1 (mergeField (captured s.cfg.regs.modemConfig1 s) s.cfg.implicitMask
      (flagBits s.cfg.implicitMask (size != 0)))]

theorem run_setHeader (size : Byte) (s : State) :
    HostRun (1 + if s.hdr = wantedHeader (size != 0) then 0 else 1) { s with hupc := .receive size .v1 }
      { setHeader size s with hupc := .receive size (receiveLength size) } (headerTrace size s) := by
  by_cases h : s.hdr = wantedHeader (size != 0)
  · simp only [setHeader, headerTrace, if_pos h]
    exact .single nofun (if_pos h) ⟨[], rfl, rfl⟩ rfl rfl
  · simp only [setHeader, headerTrace, if_neg h]
    have v1 : HostRun 1 { s with hupc := .receive size .v1 } { headerRead (size != 0) s with hupc := .receive size .v2 }
        [hRd s.cfg.regs.modemConfig1 (captured s.cfg.regs.modemConfig1 s)] :=
      .single nofun (if_neg h) ⟨[_], rfl, rfl⟩ rfl rfl
    exact v1.trans (.single nofun rfl ⟨[_], rfl, rfl⟩ rfl rfl)

theorem run_setLength (size : Byte) (s : State) :
    HostRun (if size = 0 then 0 else 1) { s with hupc := .receive size (receiveLength size) }
      { setLength size s with hupc := .receive size .v4 }
      (if size = 0 then [] else [hWr s.cfg.regs.payloadLength size]) := by
  by_cases h : size = 0
  · simp only [receiveLength, setLength, if_pos h]
    exact .refl _
  · simp only [receiveLength, setLength, if_neg h]
    exact .single nofun rfl ⟨[_], rfl, rfl⟩ rfl rfl

theorem run_attachReceive (size : Byte) (s : State) :
    HostRun (1 + if s.rxcb then 1 else 0) { s with hupc := .receive size .v4 }
      { attachReceive s with hupc := .receive size .v6 }
      (if s.rxcb then [hWr s.cfg.regs.dioMapping1 s.cfg.dio0MapRxDone] else []) := by
  have v4 : HostRun 1 { s with hupc := .receive size .v4 }
      { armReceive s with hupc := .receive size (if s.rxcb then .v5 else .v6) } [] :=
    .single nofun rfl ⟨[], rfl, rfl⟩ rfl rfl
  by_cases h : s.rxcb = true
  · simp only [attachReceive, if_pos h] at v4 ⊢
    exact v4.trans (.single nofun rfl ⟨[_], rfl, rfl⟩ rfl rfl)
  · simp only [attachReceive, if_neg h] at v4 ⊢
    exact v4

theorem run_enterRx (size : Byte) (s : State) :
    HostRun 1 { s with hupc := .receive size .v6 } (respond .ok [] (enterRx s))
      [hWr s.cfg.regs.opMode (s.cfg.opmodeLongRange ||| s.cfg.opmodeRxCont), .response [s.cfg.statuses.ok]] :=
  .single nofun rfl ⟨[_, _], rfl, rfl⟩ rfl rfl

/-! ### The whole command -/

/-- The state in which RECEIVE answers. -/
def received (size : Byte) (s : State) : State :=
  respond .ok [] (enterRx (attachReceive (setLength size (setHeader size s))))

/-- What RECEIVE puts out. -/
def receiveTrace (size : Byte) (s : State) : List Emitted :=
  headerTrace size s ++ (if size = 0 then [] else [hWr s.cfg.regs.payloadLength size]) ++
    (if s.rxcb then [hWr s.cfg.regs.dioMapping1 s.cfg.dio0MapRxDone] else []) ++
    [hWr s.cfg.regs.opMode (s.cfg.opmodeLongRange ||| s.cfg.opmodeRxCont), .response [s.cfg.statuses.ok]]

/-- RECEIVE runs part after part; each part reads the configuration, and the third RXCB, as they were before the command. -/
theorem run_receive (size : Byte) (s : State) :
    HostRun (3 + (if s.hdr = wantedHeader (size != 0) then 0 else 1) + (if size = 0 then 0 else 1) +
        (if s.rxcb then 1 else 0))
      (acceptAt (.receive size .v1) s) (received size s) (receiveTrace size s) := by
  have header := run_setHeader size s
  have length := run_setLength size (setHeader size s)
  have attach := run_attachReceive size (setLength size (setHeader size s))
  have hcfg : (setHeader size s).cfg = s.cfg := header.cfg
  have hcfg' : (setLength size (setHeader size s)).cfg = s.cfg := length.cfg.trans hcfg
  have hcfg'' : (attachReceive (setLength size (setHeader size s))).cfg = s.cfg := attach.cfg.trans hcfg'
  have hrxcb : (setLength size (setHeader size s)).rxcb = s.rxcb := by
    change (block (setLength size (setHeader size s))).rxcb = s.rxcb
    rw [block_setLength, block_setHeader]
    rfl
  have h := ((header.trans length).trans attach).trans (run_enterRx size (attachReceive (setLength size (setHeader size s))))
  rw [hcfg, hcfg', hcfg'', hrxcb] at h
  exact h.moves_eq (by omega)

theorem received_block (size : Byte) {s : State} (hidle : s.hupc = .idle) :
    BlockIs (received size s) { s with
      hdr := wantedHeader (size != 0), armed := if s.rxcb then .rxDone else .none, mode := .rxContinuous
      hctx := if s.hdr = wantedHeader (size != 0) then s.hctx
        else { s.hctx with
          t := captured s.cfg.regs.modemConfig1 s
          m := mergeField (captured s.cfg.regs.modemConfig1 s) s.cfg.implicitMask
            (flagBits s.cfg.implicitMask (size != 0)) } } := by
  rw [blockIs_iff, received, block_respond, block_enterRx, block_attachReceive, block_setLength, block_setHeader, ← hidle]
  rfl

/-- The registers RECEIVE accesses are stored plainly. -/
theorem receiveTrace_plain (size : Byte) {s : State} (h : s.cfg.admitted = true) :
    plainAccesses s.cfg.regs ((receiveTrace size s).filterMap accessOf) = true := by
  refine plainAccesses_of_admitted h _ ?_
  unfold receiveTrace headerTrace
  split_ifs <;> simp [accessOf]

/-- RECEIVE writes the mode byte last. -/
theorem lastWrite_receive_opMode (size : Byte) (s : State) :
    lastWrite s.cfg.regs.opMode ((receiveTrace size s).filterMap accessOf) =
      some (s.cfg.opmodeLongRange ||| s.cfg.opmodeRxCont) := by
  simp [receiveTrace, accessOf, List.filterMap_cons, lastWrite_append, lastWrite]

/-- What RECEIVE writes after the fixed length goes to other registers (R65). -/
theorem lastWrite_receive_length {size : Byte} {s : State} (h : s.cfg.admitted = true) (hsize : size ≠ 0) :
    lastWrite s.cfg.regs.payloadLength ((receiveTrace size s).filterMap accessOf) = some size := by
  have hop : s.cfg.regs.opMode ≠ s.cfg.regs.payloadLength := regs_ne h 1 19 (by decide)
  have hdio : s.cfg.regs.dioMapping1 ≠ s.cfg.regs.payloadLength := regs_ne h 22 19 (by decide)
  have hroute : lastWrite s.cfg.regs.payloadLength (List.filterMap accessOf
      (if s.rxcb then [hWr s.cfg.regs.dioMapping1 s.cfg.dio0MapRxDone] else [])) = none := by
    split <;> simp [accessOf, lastWrite, hdio]
  rw [receiveTrace, if_neg hsize]
  simp [accessOf, List.filterMap_cons, lastWrite_append, lastWrite, hroute, hop]

/-- Settles O24: the run of RECEIVE gives its trace, its target and its completion, and the blocks of its parts the rest. -/
theorem receiveEntersRxContinuous : Obligations.ReceiveEntersRxContinuous := by
  rintro size c rest s want bits hready hr rfl hwant hbits hg
  rw [wantedHeader_of_size] at hwant
  rw [flagBits_of_size] at hbits
  subst hwant hbits
  have h := run_receive size s
  have hplain := receiveTrace_plain size hr.1
  refine ⟨_, h.completes hready hg rfl, h.putOut, received_block size hready.1.1, h.busFrame hr hplain rfl ?_,
    h.stored hr hplain (lastWrite_receive_opMode size s),
    fun hsize => h.stored hr hplain (lastWrite_receive_length hr.1 hsize)⟩
  unfold receiveTrace headerTrace
  split_ifs <;> simp [accessOf]

end Sys2Proof.Proofs
end

section
/-!
END_PACKET (41_mode_control.md R156).
-/
namespace Sys2Proof.Proofs
open Sys2Proof.Machine

/-- e1 and e2: DIO0 is routed only where a handler is attached. -/
def attachTransmit (s : State) : State := if s.txcb then routeTransmit (armTransmit s) else armTransmit s

theorem block_attachTransmit (s : State) :
    block (attachTransmit s) = { block s with armed := if (block s).txcb then .txDone else .none } := by
  unfold attachTransmit
  split <;> rfl

theorem block_enterTx (s : State) : block (enterTx s) = { block s with mode := .tx } := rfl

theorem run_attachTransmit (s : State) :
    HostRun (1 + if s.txcb then 1 else 0) { s with hupc := .endPacket .e1 } { attachTransmit s with hupc := .endPacket .e3 }
      (if s.txcb then [hWr s.cfg.regs.dioMapping1 s.cfg.dio0MapTxDone] else []) := by
  have e1 : HostRun 1 { s with hupc := .endPacket .e1 }
      { armTransmit s with hupc := .endPacket (if s.txcb then .e2 else .e3) } [] :=
    .single nofun rfl ⟨[], rfl, rfl⟩ rfl rfl
  by_cases h : s.txcb = true
  · simp only [attachTransmit, if_pos h] at e1 ⊢
    exact e1.trans (.single nofun rfl ⟨[_], rfl, rfl⟩ rfl rfl)
  · simp only [attachTransmit, if_neg h] at e1 ⊢
    exact e1

theorem run_enterTx (s : State) :
    HostRun 1 { s with hupc := .endPacket .e3 } (respond .ok [] (enterTx s))
      [hWr s.cfg.regs.opMode (s.cfg.opmodeLongRange ||| s.cfg.opmodeTx), .response [s.cfg.statuses.ok]] :=
  .single nofun rfl ⟨[_, _], rfl, rfl⟩ rfl rfl

/-- What END_PACKET puts out. -/
def endPacketTrace (s : State) : List Emitted :=
  (if s.txcb then [hWr s.cfg.regs.dioMapping1 s.cfg.dio0MapTxDone] else []) ++
    [hWr s.cfg.regs.opMode (s.cfg.opmodeLongRange ||| s.cfg.opmodeTx), .response [s.cfg.statuses.ok]]

theorem run_endPacket (s : State) :
    HostRun (if s.txcb then 3 else 2) (acceptAt (.endPacket .e1) s) (respond .ok [] (enterTx (attachTransmit s)))
      (endPacketTrace s) := by
  have attach := run_attachTransmit s
  have hcfg : (attachTransmit s).cfg = s.cfg := attach.cfg
  have h := attach.trans (run_enterTx (attachTransmit s))
  rw [hcfg] at h
  exact h.moves_eq (by split <;> rfl)

theorem endPacket_block {s : State} (hidle : s.hupc = .idle) :
    BlockIs (respond .ok [] (enterTx (attachTransmit s)))
      { s with armed := if s.txcb then .txDone else .none, mode := .tx } := by
  rw [blockIs_iff, block_respond, block_enterTx, block_attachTransmit, ← hidle]
  rfl

/-- Settles O23: the run of END_PACKET, with and without the routing of DIO0. -/
theorem endPacketEntersTx : Obligations.EndPacketEntersTx := by
  intro rest s hready hr hg
  have h := run_endPacket s
  have hplain : plainAccesses s.cfg.regs ((endPacketTrace s).filterMap accessOf) = true := by
    refine plainAccesses_of_admitted hr.1 _ ?_
    unfold endPacketTrace
    split_ifs <;> simp [accessOf]
  refine ⟨_, h.completes hready hg rfl, h.putOut, endPacket_block hready.1.1, h.busFrame hr hplain rfl ?_,
    h.stored hr hplain ?_, fun htxcb => h.stored hr hplain ?_⟩
  · unfold endPacketTrace
    split_ifs <;> simp [accessOf]
  · simp [endPacketTrace, accessOf, List.filterMap_cons, lastWrite_append, lastWrite]
  · have hop : s.cfg.regs.opMode ≠ s.cfg.regs.dioMapping1 := regs_ne hr.1 1 22 (by decide)
    simp [endPacketTrace, htxcb, accessOf, List.filterMap_cons, lastWrite, hop]

end Sys2Proof.Proofs
end

section
/-!
BEGIN_PACKET (41_mode_control.md R154) and the registration of callbacks (R158, R159).
-/
namespace Sys2Proof.Proofs
open Sys2Proof.Machine

/-- What BEGIN_PACKET puts out. -/
def beginPacketTrace (c : Config) : List Emitted :=
  [hWr c.regs.opMode (c.opmodeLongRange ||| c.opmodeStdby), hWr c.regs.fifoAddrPtr 0x00, hWr c.regs.payloadLength 0x00,
    .response [c.statuses.ok]]

theorem run_beginPacket (s : State) :
    HostRun 3 (acceptAt (.beginPacket .b1) s) (respond .ok [] (resetPayloadLength (resetFifoPointer (seqStandby s))))
      (beginPacketTrace s.cfg) := by
  have b1 : HostRun 1 (acceptAt (.beginPacket .b1) s) { seqStandby s with hupc := .beginPacket .b2 }
      [hWr s.cfg.regs.opMode (s.cfg.opmodeLongRange ||| s.cfg.opmodeStdby)] :=
    .single nofun rfl ⟨[_], rfl, rfl⟩ rfl rfl
  have b2 : HostRun 1 { seqStandby s with hupc := .beginPacket .b2 }
      { resetFifoPointer (seqStandby s) with hupc := .beginPacket .b3 } [hWr s.cfg.regs.fifoAddrPtr 0x00] :=
    .single nofun rfl ⟨[_], rfl, rfl⟩ rfl rfl
  exact (b1.trans b2).trans (.single nofun rfl ⟨[_, _], rfl, rfl⟩ rfl rfl)

theorem beginPacket_block {s : State} (hidle : s.hupc = .idle) :
    BlockIs (respond .ok [] (resetPayloadLength (resetFifoPointer (seqStandby s)))) { s with mode := .standby } := by
  rw [blockIs_iff, block_respond, ← hidle]
  rfl

/-- Settles O21: the run of BEGIN_PACKET, whose three registers are pairwise distinct (R65). -/
theorem beginPacketResetsFifo : Obligations.BeginPacketResetsFifo := by
  intro rest s hready hr hg
  have h := run_beginPacket s
  have hplain : plainAccesses s.cfg.regs ((beginPacketTrace s.cfg).filterMap accessOf) = true :=
    plainAccesses_of_admitted hr.1 _ (by simp [beginPacketTrace, accessOf])
  have hptr : s.cfg.regs.fifoAddrPtr ≠ s.cfg.regs.opMode := regs_ne hr.1 7 1 (by decide)
  have hlen : s.cfg.regs.payloadLength ≠ s.cfg.regs.opMode := regs_ne hr.1 19 1 (by decide)
  have hlenptr : s.cfg.regs.payloadLength ≠ s.cfg.regs.fifoAddrPtr := regs_ne hr.1 19 7 (by decide)
  refine ⟨_, h.completes hready hg rfl, h.putOut, beginPacket_block hready.1.1, h.busFrame hr hplain rfl ?_,
    h.stored hr hplain ?_, h.stored hr hplain ?_, h.stored hr hplain ?_⟩
  · simp [beginPacketTrace, accessOf]
  · simp [beginPacketTrace, accessOf, List.filterMap_cons, lastWrite, hptr, hlen]
  · simp [beginPacketTrace, accessOf, List.filterMap_cons, lastWrite, hlenptr]
  · simp [beginPacketTrace, accessOf, List.filterMap_cons, lastWrite]

/-- A command of one step that answers OK, without a transfer, in the state `u` (R105). -/
theorem completes_in_one {first : HUpc} {s u : State} {rest : List Turn} (hready : Ready s) (hg : Granted 1 rest s)
    (hrun : HostRun 1 (acceptAt first s) (respond .ok [] u) [.response [s.cfg.statuses.ok]]) (hidle : u.hupc = .idle) :
    runCommand (needsDriver s) (acceptAt first) s = .next (statusAlone u.cfg.statuses.ok (withMoves rest u)) := by
  rw [hrun.completes hready hg rfl, respond_eq_statusAlone hidle]
  rfl

/-- Settles O25: each registration is one step that writes its bit and answers. -/
theorem callbackRegistration : Obligations.CallbackRegistration := by
  intro enable rest s hready hg
  have hidle : s.hupc = .idle := hready.1.1
  constructor
  · exact completes_in_one hready hg (first := .onReceive enable) (u := { s with rxcb := enable })
      (.single nofun rfl ⟨[_], rfl, rfl⟩ rfl rfl) hidle
  · exact completes_in_one hready hg (first := .onTransmit enable) (u := { s with txcb := enable })
      (.single nofun rfl ⟨[_], rfl, rfl⟩ rfl rfl) hidle

end Sys2Proof.Proofs
end

section
/-!
The refusals before construction (41_mode_control.md R149).
-/
namespace Sys2Proof.Proofs
open Sys2Proof.Machine

/-- INIT is refused while the pins are not ready (R39). -/
theorem needsPins_notReady {s : State} (h : s.pinsReady = false) : needsPins s = some .pinsNotReady := by
  simp [needsPins, h]

/-- SEND_PACKET is refused before construction whatever its length (R263). -/
theorem needsFrame_absent {s : State} (h : s.drv = .absent) (n : Nat) : needsFrame n s = some .notConstructed := by
  rw [needsFrame, needsDriver_absent h]

/-- A command refused at a free port is answered with its status alone. -/
theorem runCommand_statusAlone {s : State} {refusal : Option Status} {v : Status} (hidle : s.hupc = .idle)
    (hv : refusal = some v) (accept : State → State) :
    runCommand refusal accept s = .next (statusAlone (statusCode s.cfg.statuses v) s) := by
  rw [hv, runCommand_refused hidle, respond_eq_statusAlone hidle]

/-- Each command that needs a constructed driver is refused without one: SEND_PACKET by the admission that looks at its
length too, every other one by the driver's alone. -/
theorem exec_absent {i : Instr} {s : State} (hi : needsConstruction i = true) (hidle : s.hupc = .idle)
    (hdrv : s.drv = .absent) : exec i s = .next (statusAlone s.cfg.statuses.notConstructed s) := by
  cases i
  case resetPins | init | spiRd | spiWr => simp [needsConstruction, Instr.port] at hi
  case sendPacket src dst payload => exact runCommand_statusAlone hidle (needsFrame_absent hdrv payload.length) _
  all_goals exact runCommand_statusAlone hidle (needsDriver_absent hdrv) _

/-- Settles O9. -/
theorem refusedBeforeConstruction : Obligations.RefusedBeforeConstruction := fun _ hidle =>
  ⟨fun _ hi hdrv => exec_absent hi hidle hdrv,
    fun _ hpins => runCommand_statusAlone hidle (needsPins_notReady hpins) _⟩

end Sys2Proof.Proofs
end

section
/-!
The setters that merge a field into a register, their other bits written back as read (40_transport.md R144,
42_config_setters.md R182 to R184, R187, R188).
-/
namespace Sys2Proof.Proofs
open Sys2Proof.Machine

/-! ### Clamped operands (R111) -/

/-- A clamp of a byte to a range, written out over bytes. -/
theorem ofNat_clamp (x lo hi : Byte) (h : lo ≤ hi) :
    BitVec.ofNat 8 (clamp x.toNat lo.toNat hi.toNat) = if x < lo then lo else if x ≤ hi then x else hi := by
  have hclamp : clamp x.toNat lo.toNat hi.toNat = (if x < lo then lo else if x ≤ hi then x else hi).toNat := by
    rw [BitVec.le_def] at h
    simp only [clamp, BitVec.lt_def, BitVec.le_def]
    split_ifs <;> omega
  rw [hclamp, BitVec.ofNat_toNat, BitVec.setWidth_eq]

/-- An offset below a clamp's range is subtracted without borrow. -/
theorem ofNat_clamp_sub (x lo hi k : Byte) (h : lo ≤ hi) (hk : k ≤ lo) :
    BitVec.ofNat 8 (clamp x.toNat lo.toNat hi.toNat - k.toNat) =
      (if x < lo then lo else if x ≤ hi then x else hi) - k := by
  have hle : k.toNat ≤ clamp x.toNat lo.toNat hi.toNat := by
    rw [BitVec.le_def] at h hk
    unfold clamp
    omega
  rw [← ofNat_clamp x lo hi h, ← BitVec.ofNat_sub_ofNat_of_le _ _ k.isLt hle, BitVec.ofNat_toNat, BitVec.setWidth_eq]

/-- R183's clamp written out. -/
theorem sfCode_eq (sf : Byte) : sfCode sf = if sf < 6 then 6 else if sf ≤ 12 then sf else 12 :=
  ofNat_clamp sf 6 12 (by decide)

/-- R184's clamp and code written out. -/
theorem crCode_eq (d : Byte) : crCode d = if d < 5 then 1 else if d ≤ 8 then d - 4 else 4 := by
  have h : crCode d = (if d < 5 then 5 else if d ≤ 8 then d else 8) - 4 :=
    ofNat_clamp_sub d 5 8 4 (by decide) (by decide)
  rw [h]
  split_ifs <;> rfl

/-! ### The read-modify-write -/

/-- What a setter sets before its read: CODE in SET_BANDWIDTH (R182), HDR in IMPLICIT_HEADER (R187). -/
def beforeRead (hdr : HdrMode) (code : BitVec 4) (s : State) : State :=
  { s with hdr := hdr, hctx := { s.hctx with code := code } }

section
variable {first second : HUpc} {s : State} {a : RegNum} {hdr : HdrMode} {code : BitVec 4} {mask bits : Byte}

/-- A command of two steps x1, x2 that read a register and write it back merged (R144). -/
theorem run_rmw (hfirst : first ≠ .idle) (hsecond : second ≠ .idle)
    (hx1 : hostStep (acceptAt first s) = { hostRead a (beforeRead hdr code s) with hupc := second })
    (hx2 : hostStep { hostRead a (beforeRead hdr code s) with hupc := second } =
      respond .ok [] (hostMerge a mask bits (hostRead a (beforeRead hdr code s)))) :
    HostRun 2 (acceptAt first s) (respond .ok [] (hostMerge a mask bits (hostRead a (beforeRead hdr code s))))
      [hRd a (captured a s), hWr a (mergeField (captured a s) mask bits), .response [s.cfg.statuses.ok]] := by
  have x1 : HostRun 1 (acceptAt first s) { hostRead a (beforeRead hdr code s) with hupc := second }
      [hRd a (captured a s)] := .single hfirst hx1 ⟨[_], rfl, rfl⟩ rfl rfl
  exact x1.trans (.single hsecond hx2 ⟨[_, _], rfl, rfl⟩ rfl rfl)

theorem rmw_block (hidle : s.hupc = .idle) :
    BlockIs (respond .ok [] (hostMerge a mask bits (hostRead a (beforeRead hdr code s))))
      { s with
        hdr := hdr
        hctx := { s.hctx with t := captured a s, m := mergeField (captured a s) mask bits, code := code } } := by
  rw [blockIs_iff, block_respond, ← hidle]
  rfl

/-- A run that reads one of the two registers of modem fields (R67) and writes it back merged completes its command, and
changes nothing else of the target. -/
theorem rmw_completes {rest : List Turn} (hready : Ready s) (hr : Regular s) (hg : Granted 2 rest s)
    (ha : a = s.cfg.regs.modemConfig1 ∨ a = s.cfg.regs.modemConfig2)
    (h : HostRun 2 (acceptAt first s) (respond .ok [] (hostMerge a mask bits (hostRead a (beforeRead hdr code s))))
      [hRd a (captured a s), hWr a (mergeField (captured a s) mask bits), .response [s.cfg.statuses.ok]]) :
    ∃ t, runCommand (needsDriver s) (acceptAt first) s = .next t ∧
      PutOut s t
        [hRd a (captured a s), hWr a (mergeField (captured a s) mask bits), .response [s.cfg.statuses.ok]] ∧
      BlockIs t { s with
        hdr := hdr
        hctx := { s.hctx with t := captured a s, m := mergeField (captured a s) mask bits, code := code } } ∧
      BusFrame s t rest [regAddress a] ∧ Stored s t a (mergeField (captured a s) mask bits) := by
  have hplain : plainAccesses s.cfg.regs
      [(a, none), (a, some (mergeField (captured a s) mask bits))] = true :=
    plainAccesses_of_admitted hr.1 _ (by obtain rfl | rfl := ha <;> simp)
  exact ⟨_, h.completes hready hg rfl, h.putOut, rmw_block hready.1.1, h.busFrame hr hplain rfl (by simp [accessOf]),
    h.stored hr hplain (by simp [accessOf, List.filterMap_cons, lastWrite])⟩

end

/-! ### The five setters -/

/-- Settles O28: x1 also computes the code, which the merge of x2 takes from CODE. -/
theorem setBandwidthMergesCode : Obligations.SetBandwidthMergesCode := by
  rintro bandwidth rest s c v hready hr hg rfl rfl
  exact rmw_completes (hdr := s.hdr) (code := bwCode s.cfg bandwidth) hready hr hg (.inl rfl)
    (run_rmw (second := .setBandwidth bandwidth .x2) nofun nofun rfl rfl)

/-- Settles O30: a read-modify-write of REG_MODEM_CONFIG_2 with the clamped factor. -/
theorem setSfMergesClampedFactor : Obligations.SetSfMergesClampedFactor := by
  rintro sf rest s c v hready hr hg rfl rfl
  rw [← sfCode_eq]
  exact rmw_completes (hdr := s.hdr) (code := s.hctx.code) hready hr hg (.inr rfl)
    (run_rmw (second := .setSf sf .x2) nofun nofun rfl rfl)

/-- Settles O32: a read-modify-write of REG_MODEM_CONFIG_1 with the clamped rate's code. -/
theorem setCrMergesClampedRate : Obligations.SetCrMergesClampedRate := by
  rintro d rest s c v hready hr hg rfl rfl
  rw [← crCode_eq]
  exact rmw_completes (hdr := s.hdr) (code := s.hctx.code) hready hr hg (.inl rfl)
    (run_rmw (second := .setCr d .x2) nofun nofun rfl rfl)

/-- Settles O36: a read-modify-write of REG_MODEM_CONFIG_2 whose bits are the CRC mask or none. -/
theorem enableCrcMergesBit : Obligations.EnableCrcMergesBit := by
  rintro enable rest s c v hready hr hg rfl rfl
  exact rmw_completes (hdr := s.hdr) (code := s.hctx.code) hready hr hg (.inr rfl)
    (run_rmw (second := .enableCrc enable .x2) nofun nofun rfl rfl)

/-- h1 where HDR does not match (R187). -/
theorem hostStep_header_h1 {implicit : Bool} {s : State} (h : s.hdr ≠ wantedHeader implicit) :
    hostStep { s with hupc := .implicitHeader implicit .h1 } =
      { headerRead implicit s with hupc := .implicitHeader implicit .h2 } :=
  if_neg h

/-- Settles O35: where HDR matches, h1 answers at once; else h1 sets HDR before its read and h2 merges the bit. -/
theorem implicitHeaderTracksMode : Obligations.ImplicitHeaderTracksMode := by
  rintro implicit rest s c v want hready hr rfl rfl rfl
  refine ⟨fun hmatch hg => ?_, fun hdiffers hg => ?_, fun hdiffers => ?_⟩
  · exact completes_in_one hready hg (first := .implicitHeader implicit .h1) (u := s)
      (.single nofun (if_pos hmatch) ⟨[_], rfl, rfl⟩ rfl rfl) hready.1.1
  · exact rmw_completes (hdr := wantedHeader implicit) (code := s.hctx.code) hready hr hg (.inl rfl)
      (run_rmw (second := .implicitHeader implicit .h2) nofun nofun (hostStep_header_h1 hdiffers) rfl)
  · have hb : hostBlocked { s with hupc := .implicitHeader implicit .h1 } = false := hready.1.2
    rw [turn_host hb, hostStep_header_h1 hdiffers]
    exact ⟨rfl, [_], rfl, rfl⟩

end Sys2Proof.Proofs
end

section
/-!
The setters that write whole registers without a read (42_config_setters.md R181, R185, R186, R189).
-/
namespace Sys2Proof.Proofs
open Sys2Proof.Machine

/-! ### One write -/

/-- A command of one step that writes a plainly stored register and answers OK. -/
theorem write_completes {first : HUpc} {s : State} {rest : List Turn} {a : RegNum} {v : Byte} (hready : Ready s)
    (hr : Regular s) (hg : Granted 1 rest s) (ha : plainAccesses s.cfg.regs [(a, some v)] = true) (hbusy : first ≠ .idle)
    (hstep : hostStep (acceptAt first s) = respond .ok [] (hostWrite a v s)) :
    ∃ t, runCommand (needsDriver s) (acceptAt first) s = .next t ∧
      PutOut s t [hWr a v, .response [s.cfg.statuses.ok]] ∧ BlockIs t s ∧ BusFrame s t rest [regAddress a] ∧
      Stored s t a v := by
  have h : HostRun 1 (acceptAt first s) (respond .ok [] (hostWrite a v s)) [hWr a v, .response [s.cfg.statuses.ok]] :=
    .single hbusy hstep ⟨[_, _], rfl, rfl⟩ rfl rfl
  have hblock : BlockIs (respond .ok [] (hostWrite a v s)) s := by
    rw [blockIs_iff, block_respond, ← hready.1.1]
    rfl
  exact ⟨_, h.completes hready hg rfl, h.putOut, hblock, h.busFrame hr ha rfl (by simp [accessOf]),
    h.stored hr ha (by simp [accessOf, List.filterMap_cons, lastWrite])⟩

/-- Settles O34: y1 writes the operand as it is. -/
theorem setSyncWritesWord : Obligations.SetSyncWritesWord := fun _ _ _ hready hr hg =>
  write_completes hready hr hg (plainAccesses_of_admitted hr.1 _ (by simp)) nofun rfl

/-! ### SET_TX_POWER -/

/-- The output power of SET_TX_POWER, the clamps of R189 written out. -/
def outputPower (pa : PaSelect) (level : Byte) : Byte :=
  match pa with
  | .paBoost => (if level < 2 then 2 else if level ≤ 17 then level else 17) - 2
  | .rfo => if level ≤ 14 then level else 14

/-- The power byte for PA_BOOST: PA select, and the output power (R115). -/
theorem powerByte_boost {c : Config} (h : c.paSelect = .paBoost) (level : Byte) :
    powerByte c level = c.paSelectMask ||| fieldBits c.paOutputPower (outputPower .paBoost level) := by
  have hclamp : BitVec.ofNat 8 (clamp level.toNat txpBoostMin txpBoostMax - 2) = outputPower .paBoost level :=
    ofNat_clamp_sub level 2 17 2 (by decide) (by decide)
  simp only [powerByte, h, hclamp, flagBits, if_true]

/-- The power byte for RFO: max power 7, and the output power (R115). -/
theorem powerByte_rfo {c : Config} (h : c.paSelect = .rfo) (level : Byte) :
    powerByte c level = fieldBits c.paMaxPower 7 ||| fieldBits c.paOutputPower (outputPower .rfo level) := by
  have hclamp : BitVec.ofNat 8 (clamp level.toNat txpRfoMin txpRfoMax) = outputPower .rfo level :=
    (ofNat_clamp level 0 14 (by decide)).trans (if_neg (by simp))
  simp only [powerByte, h, hclamp]

/-- The output power is a number of four bits. -/
theorem outputPower_lt (pa : PaSelect) (level : Byte) : (outputPower pa level).toNat < 16 := by
  cases pa <;> simp only [outputPower] <;> split_ifs <;> bv_omega

/-- A code of four bits stands unchanged in the field of the low four bits. -/
theorem fieldBits_low {b : Byte} (h : b.toNat < 16) : fieldBits ⟨0x0F, 0⟩ b = b := by
  apply BitVec.eq_of_toNat_eq
  simp only [fieldBits, BitVec.shiftLeft_zero, BitVec.toNat_and]
  exact (Nat.and_two_pow_sub_one_eq_mod b.toNat 4).trans (Nat.mod_eq_of_lt h)

/-- Settles O37: p1 writes the power byte, whose fields hold R115's bytes at their default places. -/
theorem setTxPowerWritesByte : Obligations.SetTxPowerWritesByte := by
  intro level rest s b v hready hr hg hb hv
  obtain rfl : b = outputPower s.cfg.paSelect level := hb
  constructor
  · intro hselect hmax hout
    rw [hv, hselect, hmax, hout, fieldBits_low (outputPower_lt _ level)]
    rfl
  · have hpower : v = powerByte s.cfg level := by
      cases hpa : s.cfg.paSelect with
      | paBoost => rw [hv, powerByte_boost hpa, hpa]
      | rfo => rw [hv, powerByte_rfo hpa, hpa]
    rw [hpower]
    exact write_completes hready hr hg (plainAccesses_of_admitted hr.1 _ (by simp)) nofun rfl

/-! ### SET_PREAMBLE -/

/-- What SET_PREAMBLE puts out. -/
def preambleTrace (len : BitVec 16) (c : Config) : List Emitted :=
  [hWr c.regs.preambleMsb (len.extractLsb' 8 8), hWr c.regs.preambleLsb (len.extractLsb' 0 8),
    .response [c.statuses.ok]]

theorem run_setPreamble (len : BitVec 16) (s : State) :
    HostRun 2 (acceptAt (.setPreamble len .m1) s) (respond .ok [] (preambleLsb len (preambleMsb len s)))
      (preambleTrace len s.cfg) := by
  have m1 : HostRun 1 (acceptAt (.setPreamble len .m1) s) { preambleMsb len s with hupc := .setPreamble len .m2 }
      [hWr s.cfg.regs.preambleMsb (len.extractLsb' 8 8)] := .single nofun rfl ⟨[_], rfl, rfl⟩ rfl rfl
  exact m1.trans (.single nofun rfl ⟨[_, _], rfl, rfl⟩ rfl rfl)

theorem setPreamble_block (len : BitVec 16) {s : State} (hidle : s.hupc = .idle) :
    BlockIs (respond .ok [] (preambleLsb len (preambleMsb len s))) s := by
  rw [blockIs_iff, block_respond, ← hidle]
  rfl

/-- Settles O33: the run of SET_PREAMBLE, whose two registers are distinct (R65). -/
theorem setPreambleWritesBothBytes : Obligations.SetPreambleWritesBothBytes := by
  intro len rest s hready hr hg
  have h := run_setPreamble len s
  have hplain : plainAccesses s.cfg.regs ((preambleTrace len s.cfg).filterMap accessOf) = true :=
    plainAccesses_of_admitted hr.1 _ (by simp [preambleTrace, accessOf])
  have hne : s.cfg.regs.preambleLsb ≠ s.cfg.regs.preambleMsb := regs_ne hr.1 18 17 (by decide)
  refine ⟨_, h.completes hready hg rfl, h.putOut, setPreamble_block len hready.1.1, h.busFrame hr hplain rfl ?_,
    fun hlive => ?_⟩
  · simp [preambleTrace, accessOf]
  · rw [h.stored hr hplain (a := s.cfg.regs.preambleMsb) (v := len.extractLsb' 8 8) ?msb hlive,
      h.stored hr hplain (a := s.cfg.regs.preambleLsb) (v := len.extractLsb' 0 8) ?lsb hlive]
    · exact join_bytes16 len
    all_goals simp [preambleTrace, accessOf, List.filterMap_cons, lastWrite, hne]

/-! ### SET_FREQUENCY -/

/-- The frequency word is the number its value says (R112). -/
theorem eq_frfWord {c : Config} {f : Hz} {w : BitVec 24}
    (h : w.toNat = min (f.toNat * 2 ^ c.frfShift / c.fXoscHz) 0xFFFFFF) : w = frfWord c f := by
  rw [frfWord, ← h, BitVec.ofNat_toNat, BitVec.setWidth_eq]

/-- What SET_FREQUENCY puts out for the word `w`. -/
def frequencyTrace (w : BitVec 24) (c : Config) : List Emitted :=
  [hWr c.regs.frfMsb (w.extractLsb' 16 8), hWr c.regs.frfMid (w.extractLsb' 8 8),
    hWr c.regs.frfLsb (w.extractLsb' 0 8), .response [c.statuses.ok]]

theorem run_setFrequency (f : Hz) (s : State) :
    HostRun 3 (acceptAt (.setFrequency f .f1) s) (respond .ok [] (freqLsb (freqMid (freqMsb f s))))
      (frequencyTrace (frfWord s.cfg f) s.cfg) := by
  have f1 : HostRun 1 (acceptAt (.setFrequency f .f1) s) { freqMsb f s with hupc := .setFrequency f .f2 }
      [hWr s.cfg.regs.frfMsb ((frfWord s.cfg f).extractLsb' 16 8)] := .single nofun rfl ⟨[_], rfl, rfl⟩ rfl rfl
  have f2 : HostRun 1 { freqMsb f s with hupc := .setFrequency f .f2 }
      { freqMid (freqMsb f s) with hupc := .setFrequency f .f3 }
      [hWr s.cfg.regs.frfMid ((frfWord s.cfg f).extractLsb' 8 8)] := .single nofun rfl ⟨[_], rfl, rfl⟩ rfl rfl
  exact (f1.trans f2).trans (.single nofun rfl ⟨[_, _], rfl, rfl⟩ rfl rfl)

theorem setFrequency_block (f : Hz) {s : State} (hidle : s.hupc = .idle) :
    BlockIs (respond .ok [] (freqLsb (freqMid (freqMsb f s))))
      { s with freq := f, hctx := { s.hctx with frf := frfWord s.cfg f } } := by
  rw [blockIs_iff, block_respond, ← hidle]
  rfl

/-- Settles O26: the run of SET_FREQUENCY, whose three registers are pairwise distinct (R65). -/
theorem setFrequencyWritesWord : Obligations.SetFrequencyWritesWord := by
  intro f rest s w hready hr hg hw
  obtain rfl := eq_frfWord hw
  have h := run_setFrequency f s
  have hplain : plainAccesses s.cfg.regs ((frequencyTrace (frfWord s.cfg f) s.cfg).filterMap accessOf) = true :=
    plainAccesses_of_admitted hr.1 _ (by simp [frequencyTrace, accessOf])
  have hmid : s.cfg.regs.frfMid ≠ s.cfg.regs.frfMsb := regs_ne hr.1 3 2 (by decide)
  have hlsb : s.cfg.regs.frfLsb ≠ s.cfg.regs.frfMsb := regs_ne hr.1 4 2 (by decide)
  have hlsbmid : s.cfg.regs.frfLsb ≠ s.cfg.regs.frfMid := regs_ne hr.1 4 3 (by decide)
  refine ⟨_, h.completes hready hg rfl, h.putOut, setFrequency_block f hready.1.1, h.busFrame hr hplain rfl ?_,
    fun hlive => ?_⟩
  · simp [frequencyTrace, accessOf]
  · rw [h.stored hr hplain (a := s.cfg.regs.frfMsb) (v := (frfWord s.cfg f).extractLsb' 16 8) ?msb hlive,
      h.stored hr hplain (a := s.cfg.regs.frfMid) (v := (frfWord s.cfg f).extractLsb' 8 8) ?mid hlive,
      h.stored hr hplain (a := s.cfg.regs.frfLsb) (v := (frfWord s.cfg f).extractLsb' 0 8) ?lsb hlive]
    · exact join_bytes24 _
    all_goals simp [frequencyTrace, accessOf, List.filterMap_cons, lastWrite, hmid, hlsb, hlsbmid]

end Sys2Proof.Proofs
end

section
/-!
The status reads (43_status_reads.md R200 to R204): each is one read transfer, whose byte is answered.
-/
namespace Sys2Proof.Proofs
open Sys2Proof.Machine

/-! ### One read -/

/-- A command of one step that reads a register other than the FIFO port and answers `bytes` leaves the target as it was; of
the block only T changes (R141). -/
theorem read_completes {first : HUpc} {s : State} {rest : List Turn} {a : RegNum} {bytes : List Byte} (hready : Ready s)
    (hr : Regular s) (hg : Granted 1 rest s) (ha : a ≠ s.cfg.regs.fifo) (hbusy : first ≠ .idle)
    (hstep : hostStep (acceptAt first s) = respond .ok bytes (hostRead a s)) :
    ∃ t, runCommand (needsDriver s) (acceptAt first) s = .next t ∧
      PutOut s t [hRd a (captured a s), .response (s.cfg.statuses.ok :: bytes)] ∧
      BlockIs t { s with hctx := { s.hctx with t := captured a s } } ∧ BusFrame s t rest [] := by
  have h : HostRun 1 (acceptAt first s) (respond .ok bytes (hostRead a s))
      [hRd a (captured a s), .response (s.cfg.statuses.ok :: bytes)] :=
    .single hbusy hstep ⟨[_, _], rfl, rfl⟩ rfl rfl
  have hblock : BlockIs (respond .ok bytes (hostRead a s)) { s with hctx := { s.hctx with t := captured a s } } := by
    rw [blockIs_iff, block_respond, ← hready.1.1]
    rfl
  have hplain : plainAccesses s.cfg.regs [(a, none)] = true := plainAccesses_of_admitted hr.1 _ (by simp [ha])
  have hbus : BusFrame s (setScript rest (respond .ok bytes (hostRead a s))) rest [] :=
    busFrame_of_accesses [(a, none)] hr hplain rfl rfl (by simp)
  exact ⟨_, h.completes hready hg rfl, h.putOut, hblock, hbus⟩

/-! ### PACKET_RSSI -/

/-- The transform keeps every byte in the range of R204, whatever the band. -/
theorem rssiOf_range (raw : Byte) (freq : Hz) : -164 ≤ rssiOf raw freq ∧ rssiOf raw freq ≤ 98 := by
  have hraw : raw.toNat < 256 := raw.isLt
  simp only [rssiOf, rssiOffLow, rssiOffHigh]
  split <;> omega

/-- An RSSI of that range is written as two bytes without loss (R102, R202). -/
theorem rssiBytes_toInt {rssi : Int} (hlo : -164 ≤ rssi) (hhi : rssi ≤ 98) :
    ∃ hi lo : Byte, rssiBytes rssi = [hi, lo] ∧ (hi ++ lo).toInt = rssi := by
  refine ⟨_, _, rfl, ?_⟩
  rw [join_bytes16]
  exact BitVec.toInt_ofInt_eq_self (by decide) (by omega) (by omega)

/-- Settles O40: q1 reads a register that is not the FIFO port, and its RSSI fits the two bytes. -/
theorem packetRssiAnswersDbm : Obligations.PacketRssiAnswersDbm := by
  rintro rest s r hready hr hg rfl
  obtain ⟨hmin, hmax⟩ := rssiOf_range (captured s.cfg.regs.pktRssiValue s) s.freq
  obtain ⟨hi, lo, hbytes, hvalue⟩ := rssiBytes_toInt hmin hmax
  have hfifo : s.cfg.regs.pktRssiValue ≠ s.cfg.regs.fifo := regs_ne hr.1 14 0 (by decide)
  have hstep : hostStep (acceptAt .packetRssi s) = respond .ok [hi, lo] (hostRead s.cfg.regs.pktRssiValue s) :=
    hbytes ▸ rfl
  obtain ⟨t, hexec, hout, hblock, hbus⟩ :=
    read_completes (first := .packetRssi) hready hr hg hfifo nofun hstep
  exact ⟨t, hi, lo, hexec, hout, hvalue, hblock, hbus⟩

end Sys2Proof.Proofs
end

section
/-!
The edge rule (60_exceptions.md R244) and the order in which one submitted message is refused (R263).
-/
namespace Sys2Proof.Proofs
open Sys2Proof.Machine

/-- Settles O47: one case for each handler that can be attached at the moment of the edge. -/
protected theorem edgeRule : Obligations.EdgeRule := by
  intro s
  rw [turn]
  obtain ⟨harmed, hedge⟩ | ⟨harmed, hedge⟩ | ⟨harmed, hedge⟩ := edgeRule_cases s
  · rw [hedge, if_pos harmed]
  · rw [hedge, if_neg (by simp [harmed]), if_pos harmed]
  · rw [hedge, if_neg (by simp [harmed]), if_neg (by simp [harmed])]

/-- The step that takes up a message of the instruction `i` at a free port executes `i` (R27). -/
theorem step_submit_decoded {s : State} {message : List Byte} {rest : List Turn} {i : Instr}
    (hadm : s.cfg.admitted = true) (hframe : s.spiFrame = none) (hidle : s.hupc = .idle)
    (hscript : s.env.script = .submit message :: rest) (hdec : decode s.cfg.opcodes .command message = .ok i) :
    step s = exec i (withMoves rest s) := by
  rw [step_submit hadm hframe hidle hscript, submitMessage, hdec]

/-- Once the driver is constructed, SEND_PACKET is refused for a payload beyond R119's limit. -/
theorem needsFrame_tooLong {s : State} {n : Nat} (hdrv : s.drv = .ready) (hlong : maxPayload < n) :
    needsFrame n s = some .payloadTooLong := by
  rw [needsFrame, needsDriver_ready hdrv]
  exact if_neg (Nat.not_le.2 hlong)

/-- With a constructed driver, a SEND_PACKET beyond the limit is answered PayloadTooLong alone (R119, R263). -/
theorem exec_sendPacket_tooLong {s : State} {payload : List Byte} (src dst : Byte) (hidle : s.hupc = .idle)
    (hdrv : s.drv = .ready) (hlong : maxPayload < payload.length) :
    exec (.sendPacket src dst payload) s = .next (statusAlone s.cfg.statuses.payloadTooLong s) :=
  runCommand_statusAlone hidle (needsFrame_tooLong hdrv hlong) _

/-- Settles O10: an illegal message is refused before it has an instruction; a legal one is executed, and the admission of
its instruction is the first refusal that applies. -/
theorem refusalOrder : Obligations.RefusalOrder := by
  intro s bytes rest hadm hframe hidle hscript
  refine ⟨fun hillegal => (illegalMessagesRefused bytes).2 s rest hillegal hadm hframe hidle hscript,
    fun i hdec => ?_⟩
  have hexec : step s = exec i (withMoves rest s) := step_submit_decoded hadm hframe hidle hscript hdec
  refine ⟨?pins, ?driver, ?payload⟩
  case pins =>
    rintro p rfl hpins
    exact hexec.trans ((refusedBeforeConstruction (withMoves rest s) hidle).2 p hpins)
  case driver =>
    exact fun hi hdrv => hexec.trans (exec_absent hi hidle hdrv)
  case payload =>
    rintro src dst payload rfl hdrv hlong
    exact hexec.trans (exec_sendPacket_tooLong (s := withMoves rest s) src dst hidle hdrv hlong)

end Sys2Proof.Proofs
end

section
/-!
INIT on a version mismatch (41_mode_control.md R152, 70_reset_and_hazards.md R294): two steps, the second of which makes one
read and raises UnsupportedDevice.
-/
namespace Sys2Proof.Proofs
open Sys2Proof.Machine

/-- INIT is admitted while the pins are ready (R149). -/
theorem needsPins_ready {s : State} (h : s.pinsReady = true) : needsPins s = none := by
  simp [needsPins, h]

/-- An admitted INIT starts at i0, and the moves laid down run (R27, R152). -/
theorem exec_init_admitted (p : RadioParameters) {s : State} (hidle : s.hupc = .idle) (hpins : s.pinsReady = true) :
    exec (.init p) s = .next (runScript s.env.script (acceptAt (.init p .i0) s)) := by
  rw [exec, execInit, needsPins_ready hpins, runCommand_admitted hidle]

/-- Where the version read differs from the expected one, i1 raises UnsupportedDevice with the byte read (R152). -/
theorem initVersion_mismatch (p : RadioParameters) {s : State}
    (h : captured s.cfg.regs.version s ≠ s.cfg.expectedVersion) :
    initVersion p s =
      raiseHost .unsupportedDevice (captured s.cfg.regs.version s) (hostRead s.cfg.regs.version s) := if_neg h

/-- The state in which INIT answers UnsupportedDevice. -/
def initFailed (s : State) : State :=
  raiseHost .unsupportedDevice (captured s.cfg.regs.version s) (hostRead s.cfg.regs.version (initEntry s))

/-- What INIT puts out on a version mismatch. -/
def mismatchTrace (s : State) : List Emitted :=
  [hRd s.cfg.regs.version (captured s.cfg.regs.version s),
    .diag { code := s.cfg.statuses.unsupportedDevice, reason := 0x00, data := captured s.cfg.regs.version s },
    .response [s.cfg.statuses.unsupportedDevice]]

/-- i0 makes no transfer, so i1 reads the version the target held before the command. -/
theorem run_initMismatch (p : RadioParameters) {s : State}
    (hver : captured s.cfg.regs.version s ≠ s.cfg.expectedVersion) :
    HostRun 2 (acceptAt (.init p .i0) s) (initFailed s) (mismatchTrace s) := by
  have i0 : HostRun 1 (acceptAt (.init p .i0) s) { initEntry s with hupc := .init p .i1 } [] :=
    .single nofun rfl ⟨[], rfl, rfl⟩ rfl rfl
  have i1 : hostStep { initEntry s with hupc := .init p .i1 } = initFailed s :=
    initVersion_mismatch p hver
  exact i0.trans (.single nofun i1 ⟨[_, _, _], rfl, rfl⟩ rfl rfl)

theorem initFailed_block {s : State} (hidle : s.hupc = .idle) :
    BlockIs (initFailed s) { s with
      drv := .absent, armed := .none, hdr := .unknown, pendRx := false, pendTx := false
      hctx := { s.hctx with t := captured s.cfg.regs.version s } } := by
  rw [blockIs_iff, initFailed, raiseHost, block_respond, ← hidle]
  rfl

/-- INIT granted its two moves completes in the failed state, with the moves after them left over. -/
theorem exec_init_mismatch (p : RadioParameters) {rest : List Turn} {s : State} (hfree : PortFree s)
    (hpins : s.pinsReady = true) (hver : captured s.cfg.regs.version s ≠ s.cfg.expectedVersion) (hg : Granted 2 rest s) :
    exec (.init p) s = .next (setScript rest (initFailed s)) := by
  rw [exec_init_admitted p hfree.1 hpins, hg, (run_initMismatch p hver).runs hfree.2, runScript_idle rfl]

/-- A mismatch leaves the bus as it was: the version is not read through the FIFO port, and a read of any other register
changes nothing of the target (R82). -/
theorem initFailed_busFrame (rest : List Turn) {s : State} (hr : Regular s) :
    BusFrame s (setScript rest (initFailed s)) rest [] := by
  have hfifo : s.cfg.regs.version ≠ s.cfg.regs.fifo := regs_ne hr.1 23 0 (by decide)
  have hplain : plainAccesses s.cfg.regs [(s.cfg.regs.version, none)] = true :=
    plainAccesses_of_admitted hr.1 _ (by simp [hfifo])
  exact busFrame_of_accesses [(s.cfg.regs.version, none)] hr hplain rfl rfl (by simp)

/-- Settles O20: the run of a failed INIT, then the admission of each command at a free port whose driver is absent and
whose pins are still ready. -/
theorem initVersionMismatch : Obligations.InitVersionMismatch := by
  intro p rest s hfree hr hpins hver hg
  have hidle : (setScript rest (initFailed s)).hupc = .idle := rfl
  refine ⟨_, exec_init_mismatch p hfree hpins hver hg, (run_initMismatch p hver).putOut, initFailed_block hfree.1,
    initFailed_busFrame rest hr, ?construction, ?resetPins, ?init⟩
  case construction => exact fun i hi => exec_absent hi hidle rfl
  case resetPins => exact runCommand_admitted hidle _
  case init => exact fun q => exec_init_admitted q hidle hpins

end Sys2Proof.Proofs
end

section
/-!
Decoding and encoding are inverse (30_encoding.md R100 to R107): format by format, what each accepts and as what.
-/
namespace Sys2Proof.Proofs
open Sys2Proof.Machine

/-! ### What each format reads

Each format accepts exactly the operand bytes that write some operands down, and answers the instruction of those
operands. -/

theorem formatCmd0_eq_ok {op : Byte} {i j : Instr} {args : List Byte} :
    formatCmd0 op j args = .ok i ↔ args = [] ∧ j = i := by
  cases args <;> simp [formatCmd0]

theorem formatCmdB1_eq_ok {op : Byte} {f : Byte → Instr} {i : Instr} {args : List Byte} :
    formatCmdB1 op f args = .ok i ↔ ∃ b, args = [b] ∧ f b = i := by
  rcases args with _ | ⟨b, _ | ⟨b', rest⟩⟩ <;> simp [formatCmdB1]

/-- A boolean operand byte is the byte of the boolean it decodes to (R102). -/
theorem decodeBool_eq_ok {b : Byte} {e : Bool} : decodeBool b = .ok e ↔ b = boolByte e :=
  ⟨fun h => (boolByte_of_decodeBool h).symm, fun h => h ▸ decodeBool_boolByte e⟩

theorem formatCmdBool_eq_ok {op : Byte} {f : Bool → Instr} {i : Instr} {args : List Byte} :
    formatCmdBool op f args = .ok i ↔ ∃ e, args = [boolByte e] ∧ f e = i := by
  rcases args with _ | ⟨b, _ | ⟨b', rest⟩⟩
  · simp [formatCmdBool]
  · simp only [formatCmdBool, List.cons.injEq, and_true, ← decodeBool_eq_ok]
    cases decodeBool b <;> simp [Except.map]
  · simp [formatCmdBool]

theorem formatCmdB2_eq_ok {op : Byte} {f : BitVec 16 → Instr} {i : Instr} {args : List Byte} :
    formatCmdB2 op f args = .ok i ↔ ∃ v, args = bytes16 v ∧ f v = i := by
  constructor
  · intro h
    unfold formatCmdB2 at h
    split at h
    · next b1 b0 => exact ⟨join16 b1 b0, (bytes16_join16 b1 b0).symm, Except.ok.inj h⟩
    · cases h
  · rintro ⟨v, rfl, rfl⟩
    exact congrArg (fun w => Except.ok (f w)) (join_bytes16 v)

theorem formatCmdW4_eq_ok {op : Byte} {f : BitVec 32 → Instr} {i : Instr} {args : List Byte} :
    formatCmdW4 op f args = .ok i ↔ ∃ v, args = bytes32 v ∧ f v = i := by
  constructor
  · intro h
    unfold formatCmdW4 at h
    split at h
    · next b3 b2 b1 b0 => exact ⟨join32 b3 b2 b1 b0, (bytes32_join32 b3 b2 b1 b0).symm, Except.ok.inj h⟩
    · cases h
  · rintro ⟨v, rfl, rfl⟩
    exact congrArg (fun w => Except.ok (f w)) (join_bytes32 v)

/-- The sixteen operand bytes of INIT, in the order of R101. -/
def radioBytes (p : RadioParameters) : List Byte :=
  bytes32 p.frequency ++ [p.txPowerLevel] ++ bytes32 p.signalBandwidth ++ [p.spreadingFactor, p.codingRate] ++
    bytes16 p.preambleLength ++ [boolByte p.implicitHeader, p.syncWord, boolByte p.enableCrc]

theorem formatCmdP16_eq_ok {op : Byte} {i : Instr} {args : List Byte} :
    formatCmdP16 op args = .ok i ↔ ∃ p, args = radioBytes p ∧ .init p = i := by
  constructor
  · intro h
    unfold formatCmdP16 at h
    split at h
    · next f3 f2 f1 f0 level w3 w2 w1 w0 sf cr p1 p0 implicit sync crc =>
      split at h
      · next imp en himp hcrc =>
        refine ⟨_, ?_, Except.ok.inj h⟩
        simp only [radioBytes, bytes32_join32, bytes16_join16, ← decodeBool_eq_ok.1 himp, ← decodeBool_eq_ok.1 hcrc]
        rfl
      · cases h
      · cases h
    · cases h
  · rintro ⟨p, rfl, rfl⟩
    simp [formatCmdP16, radioBytes, bytes32, bytes16, join32, join16]

/-- A byte string is as long as its length byte says exactly if that byte is its length (R103). -/
theorem length_eq_toNat_iff {data : List Byte} {n : Byte} :
    data.length = n.toNat ↔ data.length ≤ 255 ∧ n = BitVec.ofNat 8 data.length := by
  constructor
  · intro h
    have hn := n.isLt
    exact ⟨by omega, by rw [h, BitVec.ofNat_toNat, BitVec.setWidth_eq]⟩
  · rintro ⟨hle, rfl⟩
    rw [BitVec.toNat_ofNat, Nat.mod_eq_of_lt (by omega)]

/-- A check answers its instruction exactly if its condition holds. -/
theorem ite_eq_ok {c : Prop} [Decidable c] {i j : Instr} {e : DecodeError} :
    (if c then Except.ok j else .error e) = .ok i ↔ c ∧ j = i := by
  split <;> simp [*]

theorem formatCmdV_eq_ok {op : Byte} {i : Instr} {args : List Byte} :
    formatCmdV op args = .ok i ↔
      ∃ data, data.length ≤ 255 ∧ args = BitVec.ofNat 8 data.length :: data ∧ .write data = i := by
  cases args with
  | nil => simp [formatCmdV]
  | cons n data => simp [formatCmdV, ite_eq_ok, length_eq_toNat_iff, and_assoc]

theorem formatCmdS_eq_ok {op : Byte} {i : Instr} {args : List Byte} :
    formatCmdS op args = .ok i ↔
      ∃ src dst payload, payload.length ≤ 255 ∧ args = src :: dst :: BitVec.ofNat 8 payload.length :: payload ∧
        .sendPacket src dst payload = i := by
  rcases args with _ | ⟨src, _ | ⟨dst, _ | ⟨n, payload⟩⟩⟩
  · simp [formatCmdS]
  · simp [formatCmdS]
  · simp [formatCmdS]
  · simp [formatCmdS, ite_eq_ok, length_eq_toNat_iff, and_assoc]

/-! ### Messages -/

/-- A command reads the operand bytes exactly of the well-formed instructions it names, written with its opcode: row by row
of R101, by what its format reads. -/
theorem decodeOperands_eq_ok {m : OpcodeMap} {k : Command} {args : List Byte} {i : Instr}
    (h : decodeOperands (m.code k) k args = .ok i) :
    i.wellFormed = true ∧ i.port = .command ∧ encode m i = m.code k :: args := by
  cases k <;> simp only [decodeOperands] at h
  case init =>
    obtain ⟨p, rfl, rfl⟩ := formatCmdP16_eq_ok.1 h
    exact ⟨rfl, rfl, rfl⟩
  case write =>
    obtain ⟨data, hlen, rfl, rfl⟩ := formatCmdV_eq_ok.1 h
    exact ⟨decide_eq_true hlen, rfl, rfl⟩
  case sendPacket =>
    obtain ⟨src, dst, payload, hlen, rfl, rfl⟩ := formatCmdS_eq_ok.1 h
    exact ⟨decide_eq_true hlen, rfl, rfl⟩
  case onReceive | onTransmit | enableCrc | implicitHeader =>
    obtain ⟨e, rfl, rfl⟩ := formatCmdBool_eq_ok.1 h
    exact ⟨rfl, rfl, rfl⟩
  case setFrequency | setBandwidth =>
    obtain ⟨v, rfl, rfl⟩ := formatCmdW4_eq_ok.1 h
    exact ⟨rfl, rfl, rfl⟩
  case setPreamble =>
    obtain ⟨v, rfl, rfl⟩ := formatCmdB2_eq_ok.1 h
    exact ⟨rfl, rfl, rfl⟩
  case receive | setSf | setCr | setSync | setTxPower =>
    obtain ⟨b, rfl, rfl⟩ := formatCmdB1_eq_ok.1 h
    exact ⟨rfl, rfl, rfl⟩
  all_goals
    obtain ⟨rfl, rfl⟩ := formatCmd0_eq_ok.1 h
    exact ⟨rfl, rfl, rfl⟩

/-- A well-formed command is written as the opcode of its row and operand bytes that the row's format reads back as it. -/
theorem encode_eq_operands (m : OpcodeMap) {i : Instr} (hwf : i.wellFormed = true) (hport : i.port = .command) :
    ∃ k args, encode m i = m.code k :: args ∧ decodeOperands (m.code k) k args = .ok i := by
  cases i
  case spiRd | spiWr => cases hport
  case init p => exact ⟨.init, radioBytes p, rfl, (formatCmdP16_eq_ok (op := m.init)).2 ⟨p, rfl, rfl⟩⟩
  case write data =>
    exact ⟨.write, _, rfl, (formatCmdV_eq_ok (op := m.write)).2 ⟨data, of_decide_eq_true hwf, rfl, rfl⟩⟩
  case sendPacket src dst payload =>
    exact ⟨.sendPacket, _, rfl,
      (formatCmdS_eq_ok (op := m.sendPacket)).2 ⟨src, dst, payload, of_decide_eq_true hwf, rfl, rfl⟩⟩
  case onReceive e => exact ⟨.onReceive, _, rfl, (formatCmdBool_eq_ok (op := m.onReceive)).2 ⟨e, rfl, rfl⟩⟩
  case onTransmit e => exact ⟨.onTransmit, _, rfl, (formatCmdBool_eq_ok (op := m.onTransmit)).2 ⟨e, rfl, rfl⟩⟩
  case enableCrc e => exact ⟨.enableCrc, _, rfl, (formatCmdBool_eq_ok (op := m.enableCrc)).2 ⟨e, rfl, rfl⟩⟩
  case implicitHeader e =>
    exact ⟨.implicitHeader, _, rfl, (formatCmdBool_eq_ok (op := m.implicitHeader)).2 ⟨e, rfl, rfl⟩⟩
  case setFrequency f => exact ⟨.setFrequency, _, rfl, (formatCmdW4_eq_ok (op := m.setFrequency)).2 ⟨f, rfl, rfl⟩⟩
  case setBandwidth w => exact ⟨.setBandwidth, _, rfl, (formatCmdW4_eq_ok (op := m.setBandwidth)).2 ⟨w, rfl, rfl⟩⟩
  case setPreamble n => exact ⟨.setPreamble, _, rfl, (formatCmdB2_eq_ok (op := m.setPreamble)).2 ⟨n, rfl, rfl⟩⟩
  case receive => exact ⟨.receive, _, rfl, rfl⟩
  case setSf => exact ⟨.setSf, _, rfl, rfl⟩
  case setCr => exact ⟨.setCr, _, rfl, rfl⟩
  case setSync => exact ⟨.setSync, _, rfl, rfl⟩
  case setTxPower => exact ⟨.setTxPower, _, rfl, rfl⟩
  case resetPins => exact ⟨.resetPins, _, rfl, rfl⟩
  case beginPacket => exact ⟨.beginPacket, _, rfl, rfl⟩
  case endPacket => exact ⟨.endPacket, _, rfl, rfl⟩
  case packetRssi => exact ⟨.packetRssi, _, rfl, rfl⟩
  case packetSnr => exact ⟨.packetSnr, _, rfl, rfl⟩
  case attach => exact ⟨.attach, _, rfl, rfl⟩
  case isPacketAvailable => exact ⟨.isPacketAvailable, _, rfl, rfl⟩
  case readPacket => exact ⟨.readPacket, _, rfl, rfl⟩

/-- A well-formed command is read back from its message, where its opcode names it alone. -/
theorem decodeCommand_encode {m : OpcodeMap} (h : m.distinct = true) {i : Instr} (hwf : i.wellFormed = true)
    (hport : i.port = .command) : decodeCommand m (encode m i) = .ok i := by
  obtain ⟨k, args, hbytes, hread⟩ := encode_eq_operands m hwf hport
  rw [hbytes, decodeCommand_code h, hread]

/-- What a message decodes to is well formed, a command, and written as that message. -/
theorem encode_of_decodeCommand {m : OpcodeMap} {bytes : List Byte} {i : Instr} (h : decodeCommand m bytes = .ok i) :
    i.wellFormed = true ∧ i.port = .command ∧ encode m i = bytes := by
  cases bytes with
  | nil => cases h
  | cons op args =>
    rw [decodeCommand] at h
    split at h
    · next k hk =>
      obtain rfl := code_of_commandOf hk
      exact decodeOperands_eq_ok h
    · cases h

/-! ### Transfer frames -/

/-- An address byte is its direction bit and the register number below it (R106). -/
theorem addressByte_cases (b : Byte) :
    (if b.getLsbD 7 then writeAddressByte (b.extractLsb' 0 7) else readAddressByte (b.extractLsb' 0 7)) = b := by
  revert b; decide

/-- The transfer of a frame, and the frame of a transfer. -/
theorem decodeTransfer_eq_ok {m : OpcodeMap} {bytes : List Byte} {i : Instr} :
    decodeTransfer bytes = .ok i ↔ i.port = .spi ∧ encode m i = bytes := by
  constructor
  · intro h
    unfold decodeTransfer at h
    split at h
    · next a8 v =>
      have haddr := addressByte_cases a8
      split at h
      · next hdir =>
        cases h
        rw [if_pos hdir] at haddr
        exact ⟨rfl, congrArg (· :: [v]) haddr⟩
      · next hdir =>
        rw [if_neg hdir] at haddr
        split at h
        · next hv =>
          cases h
          rw [hv]
          exact ⟨rfl, congrArg (· :: [0x00]) haddr⟩
        · cases h
    · cases h
  · rintro ⟨hport, rfl⟩
    cases i
    case spiRd a => simp [encode, decodeTransfer]
    case spiWr a v => simp [encode, decodeTransfer]
    all_goals cases hport

/-! ### The two directions -/

/-- Settles O1: a command by its row of R101, a transfer by its pattern of R106. -/
theorem decodeOfEncode : Obligations.DecodeOfEncode := by
  intro m i h hwf
  cases hport : i.port with
  | command => exact decodeCommand_encode h hwf hport
  | spi => exact (decodeTransfer_eq_ok (m := m)).2 ⟨hport, rfl⟩

/-- A transfer form needs no length check. -/
theorem wellFormed_of_spi {i : Instr} (h : i.port = .spi) : i.wellFormed = true := by
  cases i
  case spiRd | spiWr => rfl
  all_goals cases h

/-- Settles O2. -/
theorem encodeOfDecode : Obligations.EncodeOfDecode := by
  intro m port bytes i h
  cases port with
  | command => exact encode_of_decodeCommand h
  | spi =>
    obtain ⟨hport, hbytes⟩ := (decodeTransfer_eq_ok (m := m)).1 h
    exact ⟨wellFormed_of_spi hport, hport, hbytes⟩

/-- Settles O3: each conjunct evaluates the decoder on one word of the tables. -/
theorem knownWordsDecode : Obligations.KnownWordsDecode :=
  ⟨rfl, rfl, rfl, rfl, rfl, rfl, rfl, rfl, rfl, rfl, rfl⟩

end Sys2Proof.Proofs
end

section
/-!
One step of the machine (00_scope.md R19, 10_state.md R27): the frame laid down, a submission, or one move; and what is refused
(93_implementation_defined.md U16).
-/
namespace Sys2Proof.Proofs
open Sys2Proof.Machine

/-- A laid frame that decodes runs as its transfer (R106). -/
theorem step_frame_decoded {s : State} {frame : List Byte} {i : Instr} (hadm : s.cfg.admitted = true)
    (hframe : s.spiFrame = some frame) (hdec : decode s.cfg.opcodes .spi frame = .ok i) :
    step s = exec i { s with spiFrame := none } := by
  rw [(step_admitted hadm).1 frame hframe, stepFrame, hdec]

/-- Settles O5. -/
theorem stepRunsDecodedInstruction : Obligations.StepRunsDecodedInstruction := fun _ _ hadm =>
  ⟨fun _ hframe hdec => step_frame_decoded hadm hframe hdec,
    fun _ _ hframe hidle hscript hdec => step_submit_decoded hadm hframe hidle hscript hdec⟩

/-- A step that takes no submission at a free port is the move itself. -/
theorem stepTurn_eq_turn {m : Turn} {s : State} (h : s.hupc ≠ .idle ∨ ∀ message, m ≠ .submit message) :
    stepTurn m s = .next (turn m s) := by
  unfold stepTurn
  split
  · next message hidle => exact absurd rfl (h.resolve_left (· hidle) message)
  · rfl

/-- Settles O6: a move laid down is the next one, and with none laid down the next one is free. -/
theorem stepTakesOneMove : Obligations.StepTakesOneMove := by
  intro s hadm hframe
  rw [(step_admitted hadm).2 hframe]
  constructor
  · intro m rest hscript h
    have hturn : nextTurn s = m := by rw [nextTurn, hscript]
    have hafter : afterTurn s = withMoves rest s := by rw [afterTurn, hscript]; rfl
    rw [hturn, hafter]
    exact stepTurn_eq_turn h
  · intro hscript h
    have hturn : nextTurn s = Config.freeTurn s.env.turns := by rw [nextTurn, hscript]
    have hafter : afterTurn s = { s with env := { s.env with turns := s.env.turns + 1 } } := by rw [afterTurn, hscript]
    rw [hturn, hafter]
    exact stepTurn_eq_turn h

/-- Settles O8. -/
theorem stepRefusals : Obligations.StepRefusals := by
  refine fun s => ⟨fun hadm => ?_, fun frame hadm hframe hnone => ?_⟩
  · cases hframe : s.spiFrame <;> simp [step, hframe, ifAdmitted, hadm]
  · rw [(step_admitted hadm).1 frame hframe, stepFrame]
    cases hdec : decode s.cfg.opcodes .spi frame with
    | ok i => exact absurd hdec (hnone i)
    | error e => rfl

/-! ### Table words (log 8) -/

/-- What a decoder reads, if it reads anything. -/
theorem toOption_eq_some {r : Except DecodeError Instr} {i : Instr} : r.toOption = some i ↔ r = .ok i := by
  cases r <;> simp [Except.toOption]

section
variable {s : State} {m : OpcodeMap} {nbits w : Nat} {frame : List Byte}

/-- A word of a transfer pattern is read as a transfer frame. -/
theorem decodeWord_of_frame (h : tableTransfer nbits w = some frame) :
    decodeWord m nbits w = (decode m .spi frame).toOption := by
  rw [decodeWord, h]

/-- Any other word is read as a message. -/
theorem decodeWord_of_message (h : tableTransfer nbits w = none) :
    decodeWord m nbits w = (decode m .command (tableMessage m nbits w)).toOption := by
  rw [decodeWord, h]

/-- A word of a transfer pattern is laid at the SPI port. -/
theorem withFetchWord_of_frame (h : tableTransfer nbits w = some frame) :
    s.withFetchWord nbits w = { s with spiFrame := some frame } := by
  rw [State.withFetchWord, layWord, h]

/-- Any other word is submitted at the freed command port. -/
theorem withFetchWord_of_message (h : tableTransfer nbits w = none) :
    s.withFetchWord nbits w =
      setScript (.submit (tableMessage s.cfg.opcodes nbits w) :: (List.replicate 300 .host ++ s.env.script))
        { s with hupc := .idle, spiFrame := none } := by
  rw [State.withFetchWord, layWord, h]

end

/-- The step after a word that the state's own decoder reads: a transfer frame is laid at the SPI port, any other word
submitted at a freed command port. -/
theorem step_withFetchWord {s : State} {nbits w : Nat} {i : Instr} (hadm : s.cfg.admitted = true)
    (hword : decodeWord s.cfg.opcodes nbits w = some i) :
    step (s.withFetchWord nbits w) =
      exec i (if i.port = .spi then { s with spiFrame := none }
        else withMoves (List.replicate 300 .host ++ s.env.script) { s with hupc := .idle, spiFrame := none }) := by
  cases htransfer : tableTransfer nbits w with
  | some frame =>
    rw [decodeWord_of_frame htransfer] at hword
    have hdec : decode s.cfg.opcodes .spi frame = .ok i := toOption_eq_some.1 hword
    have hport : i.port = .spi := (encodeOfDecode _ _ _ _ hdec).2.1
    rw [withFetchWord_of_frame htransfer, if_pos hport]
    exact step_frame_decoded (s := { s with spiFrame := some frame }) hadm rfl hdec
  | none =>
    rw [decodeWord_of_message htransfer] at hword
    have hdec : decode s.cfg.opcodes .command (tableMessage s.cfg.opcodes nbits w) = .ok i := toOption_eq_some.1 hword
    have hport : i.port ≠ .spi := by rw [(encodeOfDecode _ _ _ _ hdec).2.1]; exact nofun
    rw [withFetchWord_of_message htransfer, if_neg hport]
    exact step_submit_decoded (s := setScript _ { s with hupc := .idle, spiFrame := none }) hadm rfl rfl rfl hdec

/-- Settles O7: a word of the default opcodes is one of the configuration's where these are the defaults. -/
theorem tableWordRuns : Obligations.TableWordRuns := by
  rintro s nbits w i hadm (hword | ⟨hdefault, hword⟩)
  · exact step_withFetchWord hadm hword
  · rw [decodeTableWord, ← hdefault] at hword
    exact step_withFetchWord hadm hword

/-! ### A busy port -/

/-- Every command goes through the command port (R27). -/
theorem exec_command {i : Instr} (hport : i.port = .command) (s : State) :
    ∃ refusal accept, exec i s = runCommand refusal accept s := by
  cases i
  case spiRd | spiWr => cases hport
  case resetPins => exact ⟨none, _, rfl⟩
  all_goals exact ⟨_, _, rfl⟩

/-- The command port must be free. -/
theorem exec_busy {i : Instr} {s : State} (hport : i.port = .command) (hbusy : s.hupc ≠ .idle) :
    exec i s = .fault .commandPortBusy := by
  obtain ⟨refusal, accept, h⟩ := exec_command hport s
  rw [h, runCommand_busy hbusy]

/-- Settles O11. -/
theorem busyPort : Obligations.BusyPort := fun _ hbusy => ⟨fun _ hport => exec_busy hport hbusy, fun _ => rfl⟩

/-- Settles O12: a free port is Idle before and after the pulse. -/
theorem resetPinsPulsesReset : Obligations.ResetPinsPulsesReset := by
  intro rest s hfree hg
  rw [exec_resetPins hfree hg, ← hfree.1]

end Sys2Proof.Proofs
end

section
/-!
Transfers that stand alone (40_transport.md R141, R142, 20_memory.md R82, R83): what the target answers, what it stores, and
the bits on the line (30_encoding.md R106).
-/
namespace Sys2Proof.Proofs
open Sys2Proof.Machine

section
variable {r : RegMap} {rst : Pin} {e : Env} {a : RegNum} {v : Byte}

/-! ### What a transfer captures -/

/-- A live target answers a transfer of the FIFO port with the byte at its pointer (R82). -/
theorem targetByte_fifo (hl : targetLive rst e = true) :
    targetByte r rst e r.fifo = e.tmem.read (fifoAddress (fifoPointer r e)) := by
  simp [targetByte, hl]

/-- Any other target answers a draw (R74). -/
theorem targetByte_draw (hl : ¬ targetLive rst e = true) : targetByte r rst e a = drawnByte e := by
  simp [targetByte, hl]

/-! ### What a transfer leaves in the target -/

/-- The target's memory after a read of the FIFO port that the reference target answers (R82). -/
theorem read_afterRead_fifo (hwf : e.tmem.wf = true) (hl : targetLive rst e = true) (b : Nat) :
    (targetAfterRead r rst e r.fifo).tmem.read b =
      if b = regAddress r.fifoAddrPtr then fifoPointer r e + 1 else e.tmem.read b := by
  simp [targetAfterRead, hl, advancePointer, Memory.read_write hwf]

/-- The target's memory after a write of the IRQ flags that the reference target takes: ones clear (R83). -/
theorem read_afterWrite_irqFlags (hwf : e.tmem.wf = true) (hl : targetLive rst e = true) (hf : r.irqFlags ≠ r.fifo)
    (b : Nat) :
    (targetAfterWrite r rst e r.irqFlags v).tmem.read b =
      if b = regAddress r.irqFlags then targetReg e r.irqFlags &&& ~~~v else e.tmem.read b := by
  simp [targetAfterWrite, memAfterWrite, hl, hf, Memory.read_write hwf]

/-- The reference target keeps its read-only registers in a write (R83). -/
theorem tmem_afterWrite_readOnly (hl : targetLive rst e = true) (hf : a ≠ r.fifo) (hi : a ≠ r.irqFlags)
    (hro : readOnlyReg r a = true) : (targetAfterWrite r rst e a v).tmem = e.tmem := by
  simp [targetAfterWrite, memAfterWrite, hl, hf, hi, hro]

/-- The read-only registers, listed (R69 e). -/
theorem readOnlyReg_iff :
    readOnlyReg r a = true ↔ a ∈ [r.version, r.fifoRxCurrentAddr, r.rxNbBytes, r.pktSnrValue, r.pktRssiValue] := by
  simp [readOnlyReg, or_assoc]

end

/-! ### The bits on the line -/

/-- The address byte of a read on the line: a 0, then the register number (R106). -/
theorem lineBits_readAddressByte (a : RegNum) :
    lineBits (readAddressByte a) = false :: [6, 5, 4, 3, 2, 1, 0].map a.getLsbD := by
  revert a; decide

/-- The address byte of a write on the line: a 1, then the register number (R106). -/
theorem lineBits_writeAddressByte (a : RegNum) :
    lineBits (writeAddressByte a) = true :: [6, 5, 4, 3, 2, 1, 0].map a.getLsbD := by
  revert a; decide

/-- Settles O16. -/
theorem transferBitsOnLine : Obligations.TransferBitsOnLine := by
  refine fun a v s => ⟨⟨_, _, rfl, rfl, rfl, ?_⟩, ⟨_, _, rfl, rfl, rfl, ?_⟩⟩
  · simp only [transferLine, transferFrame, List.flatMap_cons, List.flatMap_nil, lineBits_readAddressByte]
    rfl
  · simp only [transferLine, transferFrame, List.flatMap_cons, List.flatMap_nil, lineBits_writeAddressByte]
    rfl

/-! ### SPI.RD and SPI.WR -/

/-- Settles O14: a read of the FIFO port, a read of another register, and a draw. -/
theorem spiReadTransfer : Obligations.SpiReadTransfer := by
  refine fun a s hwf => ⟨hostRead a s, rfl, ⟨[_], rfl, rfl⟩, rfl, rfl, ?fifo, ?register, ?draw⟩
  case fifo =>
    rintro hlive rfl
    have hread := read_afterRead_fifo (r := s.cfg.regs) hwf hlive
    exact ⟨targetByte_fifo hlive, (hread _).trans (if_pos rfl),
      fun b hb => (hread b).trans (if_neg (by simpa using hb))⟩
  case register =>
    exact fun hlive ha => ⟨targetByte_live hlive ha, fun b _ => congrArg (·.read b) (targetAfterRead_tmem ha)⟩
  case draw =>
    exact fun hlive => ⟨targetByte_draw hlive,
      fun b _ => congrArg (·.read b) (tmem_afterRead_draw (Bool.eq_false_iff.2 hlive))⟩

/-- Settles O15: the four kinds of registers, and a draw. -/
theorem spiWriteTransfer : Obligations.SpiWriteTransfer := by
  refine fun a v s hwf => ⟨hostWrite a v s, captured a s, rfl, rfl, rfl, rfl, fun hlive => ?live, fun hlive => ?draw⟩
  case draw =>
    exact ⟨targetByte_draw hlive, fun b _ => congrArg (·.read b) (tmem_afterWrite_draw (Bool.eq_false_iff.2 hlive))⟩
  case live =>
    split_ifs with hfifo hirq hro
    · subst hfifo
      have hread := read_afterWrite_fifo (r := s.cfg.regs) v hwf hlive
      have hne := (regAddress_ne_fifoAddress s.cfg.regs.fifoAddrPtr (fifoPointer s.cfg.regs s.env)).symm
      rw [fifoPointer] at hread hne
      refine ⟨targetByte_fifo hlive, (hread _).trans ?_, (hread _).trans (if_pos rfl), fun b hb => (hread b).trans ?_⟩
      · rw [if_neg hne, if_pos rfl]
      · simp only [List.mem_cons, List.not_mem_nil, or_false, not_or] at hb
        rw [if_neg hb.2, if_neg hb.1]
    · subst hirq
      have hread := read_afterWrite_irqFlags (v := v) hwf hlive hfifo
      exact ⟨targetByte_live hlive hfifo, (hread _).trans (if_pos rfl),
        fun b hb => (hread b).trans (if_neg (by simpa using hb))⟩
    · exact ⟨targetByte_live hlive hfifo,
        fun b _ => congrArg (·.read b) (tmem_afterWrite_readOnly hlive hfifo hirq (readOnlyReg_iff.2 hro))⟩
    · have hplain : plainReg s.cfg.regs a = true := by
        simp [plainReg, hfifo, hirq, Bool.eq_false_iff.2 (mt readOnlyReg_iff.1 hro)]
      have hread := read_afterWrite_plain v hwf hlive hplain
      exact ⟨targetByte_live hlive hfifo, (hread _).trans (if_pos rfl),
        fun b hb => (hread b).trans (if_neg (by simpa using hb))⟩

/-- Settles O17: the write stores the byte (R83), and the read answers the register (R82). -/
theorem writeThenRead : Obligations.WriteThenRead := by
  intro a v s hwf hlive ha
  simp only [List.mem_cons, not_or] at ha
  obtain ⟨hfifo, hirq, hro⟩ := ha
  have hro' : readOnlyReg s.cfg.regs a = false := Bool.eq_false_iff.2 (mt readOnlyReg_iff.1 (by simpa using hro))
  refine ⟨_, _, rfl, rfl, ?_⟩
  exact (targetByte_live ((targetLive_afterWrite ..).trans hlive) hfifo).trans
    (targetAfterWrite_stores hwf hlive hfifo hirq hro')

end Sys2Proof.Proofs
end

section
/-!
The frequency word (30_encoding.md R112), clamped operands (R111), and the commands of one step that answer from the block
(43_status_reads.md R203, R204, 44_packet_protocol.md R210, R213, R214).
-/
namespace Sys2Proof.Proofs
open Sys2Proof.Machine

/-! ### The frequency word -/

/-- The word is the saturated quotient: it fits 24 bits. -/
theorem toNat_frfWord (c : Config) (f : Hz) :
    (frfWord c f).toNat = min (f.toNat * 2 ^ c.frfShift / c.fXoscHz) 0xFFFFFF := by
  rw [frfWord, BitVec.toNat_ofNat, Nat.mod_eq_of_lt]
  exact Nat.lt_of_le_of_lt (Nat.min_le_right ..) (by decide)

/-- The default crystal is 2^24 steps of 1/64 kHz below 1024 MHz. -/
theorem default_saturates (f : Hz) :
    0xFFFFFF < f.toNat * 2 ^ defaultConfig.frfShift / defaultConfig.fXoscHz ↔ 1024000000 ≤ f.toNat := by
  have hshift : defaultConfig.frfShift = 19 := rfl
  have hcrystal : defaultConfig.fXoscHz = 32000000 := rfl
  rw [hshift, hcrystal]
  omega

/-- Settles O27; the four examples are evaluated. -/
theorem frequencyWord : Obligations.FrequencyWord :=
  ⟨toNat_frfWord, default_saturates, by decide, by decide, by decide, by decide⟩

/-! ### Clamps -/

/-- The state in which a setter that merges a field into register `a` answers: what it sets before its read, the read, and
the merging write (R144). -/
def rmwAnswered (a : RegNum) (hdr : HdrMode) (code : BitVec 4) (mask bits : Byte) (s : State) : State :=
  respond .ok [] (hostMerge a mask bits (hostRead a (beforeRead hdr code s)))

/-- What such a setter puts out. -/
def rmwTrace (a : RegNum) (mask bits : Byte) (s : State) : List Emitted :=
  [hRd a (captured a s), hWr a (mergeField (captured a s) mask bits), .response [s.cfg.statuses.ok]]

theorem run_setSf (sf : Byte) (s : State) :
    HostRun 2 (acceptAt (.setSf sf .x1) s)
      (rmwAnswered s.cfg.regs.modemConfig2 s.hdr s.hctx.code s.cfg.sfField.mask (fieldBits s.cfg.sfField (sfCode sf)) s)
      (rmwTrace s.cfg.regs.modemConfig2 s.cfg.sfField.mask (fieldBits s.cfg.sfField (sfCode sf)) s) :=
  run_rmw (second := .setSf sf .x2) nofun nofun rfl rfl

theorem run_setCr (d : Byte) (s : State) :
    HostRun 2 (acceptAt (.setCr d .x1) s)
      (rmwAnswered s.cfg.regs.modemConfig1 s.hdr s.hctx.code s.cfg.crField.mask (fieldBits s.cfg.crField (crCode d)) s)
      (rmwTrace s.cfg.regs.modemConfig1 s.cfg.crField.mask (fieldBits s.cfg.crField (crCode d)) s) :=
  run_rmw (second := .setCr d .x2) nofun nofun rfl rfl

/-- SET_SF depends on its operand through the clamped code alone (R183). -/
theorem exec_setSf_congr {x y : Byte} (h : sfCode x = sfCode y) {rest : List Turn} {s : State} (hready : Ready s)
    (hg : Granted 2 rest s) : exec (.setSf x) s = exec (.setSf y) s := by
  have hx : exec (.setSf x) s = _ := (run_setSf x s).completes hready hg rfl
  have hy : exec (.setSf y) s = _ := (run_setSf y s).completes hready hg rfl
  rw [hx, hy, h]

/-- SET_CR depends on its operand through the clamped code alone (R184). -/
theorem exec_setCr_congr {x y : Byte} (h : crCode x = crCode y) {rest : List Turn} {s : State} (hready : Ready s)
    (hg : Granted 2 rest s) : exec (.setCr x) s = exec (.setCr y) s := by
  have hx : exec (.setCr x) s = _ := (run_setCr x s).completes hready hg rfl
  have hy : exec (.setCr y) s = _ := (run_setCr y s).completes hready hg rfl
  rw [hx, hy, h]

theorem run_setTxPower (level : Byte) (s : State) :
    HostRun 1 (acceptAt (.setTxPower level) s)
      (respond .ok [] (hostWrite s.cfg.regs.paConfig (powerByte s.cfg level) s))
      [hWr s.cfg.regs.paConfig (powerByte s.cfg level), .response [s.cfg.statuses.ok]] :=
  .single nofun rfl ⟨[_, _], rfl, rfl⟩ rfl rfl

/-- The power byte depends on its operand through the clamped output power alone (R115). -/
theorem powerByte_congr {c : Config} {x y : Byte} (h : outputPower c.paSelect x = outputPower c.paSelect y) :
    powerByte c x = powerByte c y := by
  cases hpa : c.paSelect with
  | paBoost => rw [hpa] at h; rw [powerByte_boost hpa, powerByte_boost hpa, h]
  | rfo => rw [hpa] at h; rw [powerByte_rfo hpa, powerByte_rfo hpa, h]

/-- SET_TX_POWER depends on its operand through the clamped output power alone (R189). -/
theorem exec_setTxPower_congr {x y : Byte} {s : State} (h : outputPower s.cfg.paSelect x = outputPower s.cfg.paSelect y)
    {rest : List Turn} (hready : Ready s) (hg : Granted 1 rest s) :
    exec (.setTxPower x) s = exec (.setTxPower y) s := by
  have hx : exec (.setTxPower x) s = _ := (run_setTxPower x s).completes hready hg rfl
  have hy : exec (.setTxPower y) s = _ := (run_setTxPower y s).completes hready hg rfl
  rw [hx, hy, powerByte_congr h]

/-- Settles O31: an operand outside a clamp's range has the code of the bound. -/
theorem clampIdempotence : Obligations.ClampIdempotence := by
  intro x rest s hready hg
  have hg1 : Granted 1 (.host :: rest) s := hg
  refine ⟨fun h => exec_setSf_congr ?_ hready hg, fun h => exec_setSf_congr ?_ hready hg,
    fun h => exec_setCr_congr ?_ hready hg, fun h => exec_setCr_congr ?_ hready hg,
    fun hpa h => exec_setTxPower_congr ?_ hready hg1, fun hpa h => exec_setTxPower_congr ?_ hready hg1,
    fun hpa h => exec_setTxPower_congr ?_ hready hg1⟩
  · rw [sfCode_eq, if_pos h]; rfl
  · rw [sfCode_eq, if_neg (by bv_omega), if_neg (by bv_omega)]; rfl
  · rw [crCode_eq, if_pos h]; rfl
  · rw [crCode_eq, if_neg (by bv_omega), if_neg (by bv_omega)]; rfl
  · simp only [hpa, outputPower, if_pos h]; rfl
  · simp only [hpa, outputPower]; rw [if_neg (by bv_omega), if_neg (by bv_omega)]; rfl
  · simp only [hpa, outputPower]; rw [if_neg (by bv_omega)]; rfl

/-! ### Status reads -/

/-- Settles O41: q1 reads a register that is not the FIFO port and answers its byte. -/
theorem packetSnrAnswersRawByte : Obligations.PacketSnrAnswersRawByte := by
  rintro rest s r hready hr hg rfl
  exact read_completes (first := .packetSnr) hready hr hg (regs_ne hr.1 13 0 (by decide)) nofun rfl

/-- Settles O42: the first transform is written out, the second divides by the four steps of a dB. -/
theorem statusTransforms : Obligations.StatusTransforms := by
  intro raw freq
  obtain ⟨hmin, hmax⟩ := rssiOf_range raw freq
  exact ⟨rfl, hmin, hmax, mul_one_div (raw.toNat : Rat) 4⟩

/-! ### The framer's commands of one step -/

/-- Settles O43: a1 writes the registers of the framer and answers. -/
theorem attachResetsFramer : Obligations.AttachResetsFramer := fun _ s hready hg =>
  completes_in_one hready hg (first := .attach)
    (u := { s with rxcb := true, txcb := true, seq := 0, txDone := false, slot := { s.slot with valid := false } })
    (.single nofun rfl ⟨[_], rfl, rfl⟩ rfl rfl) hready.1.1

/-- A command of one step that answers OK with result bytes, without a transfer, in the state `u` (R105). -/
theorem answers_in_one {first : HUpc} {s u : State} {rest : List Turn} {bytes : List Byte} (hready : Ready s)
    (hg : Granted 1 rest s)
    (hrun : HostRun 1 (acceptAt first s) (respond .ok bytes u) [.response (s.cfg.statuses.ok :: bytes)])
    (hidle : u.hupc = .idle) :
    runCommand (needsDriver s) (acceptAt first) s =
      .next { withMoves rest u with out := .response (u.cfg.statuses.ok :: bytes) :: u.out } := by
  rw [hrun.completes hready hg rfl, respond, ← hidle]
  rfl

/-- READ_PACKET answers what the slot holds and clears it (R214). -/
theorem exec_readPacket {rest : List Turn} {s : State} (hready : Ready s) (hg : Granted 1 rest s) :
    exec .readPacket s = .next { withMoves rest s with
      slot := { s.slot with valid := false }
      out := .response (s.cfg.statuses.ok :: slotResult s.slot) :: s.out } :=
  answers_in_one hready hg (first := .readPacket) (u := { s with slot := { s.slot with valid := false } })
    (.single nofun rfl ⟨[_], rfl, rfl⟩ rfl rfl) hready.1.1

/-- An invalid slot is as it was once it is marked invalid. -/
theorem slot_clear_of_invalid {slot : Slot} (h : slot.valid = false) : { slot with valid := false } = slot := by
  rw [← h]

/-- Settles O44: both commands answer in one step; an RSSI of the range fits its two bytes. -/
theorem slotIsReadAndCleared : Obligations.SlotIsReadAndCleared := by
  intro rest s hready hg hmin hmax
  refine ⟨?available, fun hvalid => ?empty, fun hvalid => ?packet⟩
  case available =>
    exact answers_in_one hready hg (first := .isPacketAvailable) (u := s)
      (.single nofun rfl ⟨[_], rfl, rfl⟩ rfl rfl) hready.1.1
  case empty =>
    rw [exec_readPacket hready hg, slot_clear_of_invalid hvalid]
    simp [slotResult, hvalid]
  case packet =>
    obtain ⟨hi, lo, hbytes, hvalue⟩ := rssiBytes_toInt hmin hmax
    refine ⟨hi, lo, hvalue, ?_⟩
    rw [exec_readPacket hready hg]
    simp [slotResult, hvalid, hbytes]

end Sys2Proof.Proofs
end

section
/-!
The dispatch (60_exceptions.md R245), the moves that wait (10_state.md R33, 20_memory.md R73, 44_packet_protocol.md R212 s15),
and the invariant at block reset (70_reset_and_hazards.md R319).
-/
namespace Sys2Proof.Proofs
open Sys2Proof.Machine

/-! ### The dispatch -/

/-- While a service is in progress the dispatch is not enabled. -/
theorem dispatchRule_busy {s : State} (h : s.iupc ≠ .idle) (txFirst : Bool) : dispatchRule txFirst s = s := by
  unfold dispatchRule
  split
  · contradiction
  · rfl

/-- With ICTX Idle the dispatch takes the service that is pending, if one is. -/
theorem dispatchRule_idle {s : State} (h : s.iupc = .idle) (txFirst : Bool) :
    dispatchRule txFirst s = (pendingService txFirst s).elim s (takeInterrupt · s) := by
  unfold dispatchRule
  rw [h]
  cases pendingService txFirst s <;> rfl

/-- Settles O48: a latch is taken unless the other one is set and preferred. -/
protected theorem dispatchRule : Obligations.DispatchRule := by
  refine fun txFirst s => ⟨fun hidle hrx hfirst => ?_, fun hidle htx hfirst => ?_, ?_⟩
  · have hp : pendingService txFirst s = some .rx := by obtain h | h := hfirst <;> simp [pendingService, hrx, h]
    exact (dispatchRule_idle hidle txFirst).trans (by rw [hp]; rfl)
  · have hp : pendingService txFirst s = some .tx := by obtain h | h := hfirst <;> simp [pendingService, htx, h]
    exact (dispatchRule_idle hidle txFirst).trans (by rw [hp]; rfl)
  · rintro (hbusy | ⟨hrx, htx⟩)
    · exact dispatchRule_busy hbusy txFirst
    · have hp : pendingService txFirst s = none := by simp [pendingService, hrx, htx]
      by_cases hidle : s.iupc = .idle
      · exact (dispatchRule_idle hidle txFirst).trans (by rw [hp]; rfl)
      · exact dispatchRule_busy hidle txFirst

/-! ### Waiting -/

/-- A move of HCTX changes nothing where its step changes nothing. -/
theorem turn_host_wait {s : State} (h : hostStep s = s) : turn .host s = s := by
  simp only [turn, h, ite_self]

/-- A tick that is not held back is the poll loop's. -/
theorem turn_tick {s : State} (h : hostBlocked s = false) : turn .tick s = pollTick s := by
  simp [turn, h]

/-- HCTX's step at `acquire LOCK` while the lock is taken. -/
theorem sendAcquire_wait {s : State} (h : s.lock ≠ .free) (next : HUpc) : sendAcquire next s = s := if_neg h

/-- ICTX's step at `acquire LOCK` while the lock is taken. -/
theorem irqAcquire_wait {s : State} (h : s.lock ≠ .free) (next : IUpc) : irqAcquire next s = s := if_neg h

/-- Under ICTX_PREEMPTS a service that need not wait for the lock holds HCTX back (R73). -/
theorem hostBlocked_of_service {s : State} (hpre : s.cfg.ictxPreempts = true) (hbusy : s.iupc ≠ .idle)
    (hfree : s.iupc = .isrRx .r1 ∨ s.iupc = .isrTx .t1 → s.lock = .free) : hostBlocked s = true := by
  have hwait : (atAcquire s.iupc && s.lock != .free) = false := by
    cases hacq : atAcquire s.iupc with
    | false => rfl
    | true =>
      have hat : s.iupc = .isrRx .r1 ∨ s.iupc = .isrTx .t1 := by
        unfold atAcquire at hacq
        split at hacq
        · exact .inl ‹_›
        · exact .inr ‹_›
        · cases hacq
      simp [hfree hat]
  simp [hostBlocked, hpre, hbusy, hwait]

/-- A tick anywhere but in the poll loop has no effect (R270). -/
theorem pollTick_outside {s : State}
    (h : ∀ src dst n, s.hupc ≠ .sendPacket src dst n .s15 ∧ s.hupc ≠ .sendPacket src dst n .s15Await) :
    pollTick s = s := by
  obtain heq | ⟨src, dst, n, hs, -⟩ | ⟨src, dst, n, hs, -⟩ := pollTick_cases s
  · exact heq
  · exact absurd hs (h src dst n).1
  · exact absurd hs (h src dst n).2

/-- Settles O53: the clauses in the order of the rules they wait by. -/
theorem waitingMovesChangeNothing : Obligations.WaitingMovesChangeNothing := by
  refine fun s => ⟨?send, ?service, ?preempted, ?tick, ?await, ?poll⟩
  case send =>
    intro src dst n hs hlock
    have hstep : hostStep s = sendAcquire (.sendPacket src dst n .s4) s := by rw [hostStep, hs]; rfl
    exact turn_host_wait (hstep.trans (sendAcquire_wait hlock _))
  case service =>
    rintro (hs | hs) hlock
    · have hstep : irqStep s = irqAcquire (.isrRx .r2) s := by rw [irqStep, hs]; rfl
      exact hstep.trans (irqAcquire_wait hlock _)
    · have hstep : irqStep s = irqAcquire (.isrTx .t2) s := by rw [irqStep, hs]; rfl
      exact hstep.trans (irqAcquire_wait hlock _)
  case preempted =>
    exact fun hpre hbusy hfree => if_pos (hostBlocked_of_service hpre hbusy hfree)
  case tick =>
    intro h
    simp only [turn, pollTick_outside h, ite_self]
  case await =>
    intro src dst n hs
    have hstep : hostStep s = s := by rw [hostStep, hs]; rfl
    refine ⟨turn_host_wait hstep, fun hb => ?_⟩
    rw [turn_tick hb, pollTick, hs]
  case poll =>
    intro src dst n hs hb
    have htick : turn .tick s =
        if pollAgain s then { s with pcnt := s.pcnt + 1, hupc := .sendPacket src dst n .s15 } else s := by
      rw [turn_tick hb, pollTick, hs]
    refine ⟨fun hpoll => ⟨?_, ?_⟩, fun hpoll => ?_⟩
    · rw [turn_host hb, hostStep, hs]
      exact if_pos hpoll
    · rw [htick, if_pos hpoll, ← hs]
    · rw [htick, hpoll, if_neg Bool.false_ne_true]

/-! ### Block reset -/

/-- Settles O56: at reset both contexts are idle, the lock is free and nothing has been received. -/
theorem invAtReset : Obligations.InvAtReset where
  hostLock := by decide
  irqLock := by decide
  pins := nofun
  initPins := nofun
  driver := nofun
  header := nofun
  initHeader := nofun
  slotCount := nofun
  slotRssi := nofun
  parsed := nofun
  rssiRange := nofun
  poll := Nat.zero_le _
  await := nofun
  csIdle := nofun
  modeReachable := nofun
  sleeping := nofun
  buffers := ⟨List.length_replicate .., List.length_replicate .., rfl⟩
  frame := nofun
  writeLoop := nofun
  writeCapacity := nofun
  readLoop := nofun
  memory := rfl

end Sys2Proof.Proofs
end

section
/-!
The invariant (70_reset_and_hazards.md R319). A step of a context is taken apart into what it does to the registers, with the
step pointer where it was, and the move of the pointer: each part keeps the invariant.
-/
namespace Sys2Proof.Proofs
open Sys2Proof.Machine

/-! ### Changes of registers that keep the invariant -/

section
variable {s : State}

theorem inv_setScript (h : Inv s) (l : List Turn) : Inv (setScript l s) := { h with }

theorem inv_respond (h : Inv s) (hidle : s.hupc = .idle) (v : Status) (bytes : List Byte) : Inv (respond v bytes s) := by
  rw [respond, ← hidle]
  exact { h with }

theorem inv_emitDiag (h : Inv s) (v : Status) (r d : Byte) : Inv (emitDiag v r d s) := { h with }

/-- A read transfer drives CS and reads the target. -/
theorem inv_readTransfer (h : Inv s) (c : Ctx) (a : RegNum) : Inv (readTransfer c a s) :=
  { h with csIdle := nofun, memory := targetAfterRead_wf _ _ _ h.memory }

/-- A write transfer drives CS and writes the target. -/
theorem inv_writeTransfer (h : Inv s) (c : Ctx) (a : RegNum) (v : Byte) : Inv (writeTransfer c a v s) :=
  { h with csIdle := nofun, memory := targetAfterWrite_wf _ _ _ _ h.memory }

theorem inv_hostRead (h : Inv s) (a : RegNum) : Inv (hostRead a s) := { inv_readTransfer h .hctx a with }

theorem inv_hostWrite (h : Inv s) (a : RegNum) (v : Byte) : Inv (hostWrite a v s) := inv_writeTransfer h .hctx a v

theorem inv_hostMerge (h : Inv s) (a : RegNum) (mask bits : Byte) : Inv (hostMerge a mask bits s) :=
  { inv_writeTransfer h .hctx a (mergeField s.hctx.t mask bits) with }

theorem inv_irqRead (h : Inv s) (a : RegNum) : Inv (irqRead a s) := { inv_readTransfer h .ictx a with }

theorem inv_irqWrite (h : Inv s) (a : RegNum) (v : Byte) : Inv (irqWrite a v s) := inv_writeTransfer h .ictx a v

theorem inv_irqMerge (h : Inv s) (a : RegNum) (mask bits : Byte) : Inv (irqMerge a mask bits s) :=
  { inv_writeTransfer h .ictx a (mergeField s.ictx.it mask bits) with }

theorem inv_freqMsb (h : Inv s) (f : Hz) : Inv (freqMsb f s) :=
  { inv_hostWrite h s.cfg.regs.frfMsb ((frfWord s.cfg f).extractLsb' 16 8) with }

theorem inv_bandwidthRead (h : Inv s) (w : Hz) : Inv (bandwidthRead w s) :=
  { inv_hostRead h s.cfg.regs.modemConfig1 with }

/-- HDR once it is known. -/
theorem inv_setHdr (h : Inv s) {m : HdrMode} (hm : m ≠ .unknown) : Inv { s with hdr := m } :=
  { h with header := fun _ => hm, initHeader := fun _ => hm }

theorem wantedHeader_ne_unknown (b : Bool) : wantedHeader b ≠ .unknown := by cases b <;> nofun

/-- A mode other than Sleep and RxSingle. -/
theorem inv_setMode (h : Inv s) {m : Mode} (hsleep : m ≠ .sleep) (hsingle : m ≠ .rxSingle) :
    Inv { s with mode := m } :=
  { h with modeReachable := hsingle, sleeping := fun hm => absurd hm hsleep }

/-- A slot marked invalid. -/
theorem inv_clearSlot (h : Inv s) : Inv { s with slot := { s.slot with valid := false } } :=
  { h with slotCount := nofun, slotRssi := nofun }

theorem inv_driveCs (h : Inv s) : Inv (driveCs .high s) := { h with csIdle := nofun }

theorem inv_driveRst (h : Inv s) (p : Pin) : Inv (driveRst p s) := by
  cases p with
  | high => exact { h with memory := resetTarget_wf _ h.memory }
  | low | undriven => exact { h with }

theorem inv_armTransmit (h : Inv s) : Inv (armTransmit s) := { h with }

theorem inv_armReceive (h : Inv s) : Inv (armReceive s) := { h with }

end

/-! ### Moves of HUPC -/

/-- MODE is Sleep only where INIT is asleep. -/
theorem mode_ne_sleep {s : State} (h : Inv s) (hu : initAsleep s.hupc = false) : s.mode ≠ .sleep := fun hm =>
  Bool.false_ne_true (hu.symm.trans (h.sleeping hm))

/-- A pointer in WRITE's loop is past w1. -/
theorem writeOpened_of_writing {u : HUpc} (h : writing u = true) : writeOpened u = true := by
  unfold writeOpened
  split
  · rfl
  · rfl
  · rfl
  · exact h

/-- HUPC may go from `u` to `v` with no other change, as far as the lock, the admission of the command and the await of a
tick are concerned. -/
structure Follows (u v : HUpc) : Prop where
  holds : hostHolds v = hostHolds u
  init : initRunning v = true → initRunning u = true
  driver : driverCommand v = true → driverCommand u = true
  header : initHeaderSet v = true → initHeaderSet u = true
  await : ∀ src dst n, v ≠ .sendPacket src dst n .s15Await
  frame : ∀ src dst n k, v = .sendPacket src dst n k → ∃ j, u = .sendPacket src dst n j

section
variable {s : State} {u : HUpc}

/-- A move of HUPC along `Follows` keeps the invariant, if INIT's sleep and WRITE's counters allow the new step. -/
theorem inv_moves (h : Inv s) (hf : Follows s.hupc u) (hm : s.mode = .sleep → initAsleep u = true)
    (hw : writing u = true → s.hctx.cnt.toNat < s.hctx.k.toNat)
    (hc : writeOpened u = true → s.hctx.cur.toNat + s.hctx.k.toNat ≤ 255) : Inv { s with hupc := u } :=
  { h with
    hostLock := hf.holds ▸ h.hostLock
    initPins := fun hi => h.initPins (hf.init hi)
    driver := fun hd => h.driver (hf.driver hd)
    initHeader := fun hs => h.initHeader (hf.header hs)
    await := fun src dst n hu => absurd hu (hf.await src dst n)
    sleeping := hm
    frame := fun src dst n k hu => (hf.frame src dst n k hu).elim fun j hj => h.frame src dst n j hj
    writeLoop := hw
    writeCapacity := hc }

/-- A move to a step that is not inside a WRITE. -/
theorem inv_follows (h : Inv s) (hf : Follows s.hupc u) (hm : s.mode = .sleep → initAsleep u = true)
    (hu : writeOpened u = false) : Inv { s with hupc := u } :=
  have hopen : ¬ writeOpened u = true := by simp [hu]
  inv_moves h hf hm (fun hw => absurd (writeOpened_of_writing hw) hopen) fun hc => absurd hc hopen

/-- A command that does not hold the lock answers. -/
theorem inv_answers (h : Inv s) (hh : hostHolds s.hupc = false) (hm : s.mode ≠ .sleep) (v : Status)
    (bytes : List Byte) : Inv (respond v bytes s) :=
  { inv_follows (u := .idle) h ⟨hh.symm, nofun, nofun, nofun, nofun, nofun⟩ (fun hs => absurd hs hm) rfl with }

/-- INIT goes from step to step, before i12 or after it. -/
theorem inv_initGoes {p : RadioParameters} {j k : InitStep} (h : Inv s) (hs : s.hupc = .init p j)
    (hk : initHeaderSet (.init p k) = true → initHeaderSet (.init p j) = true)
    (hm : s.mode = .sleep → initAsleep (.init p k) = true) : Inv { s with hupc := .init p k } :=
  inv_follows h (hs ▸ ⟨rfl, fun _ => rfl, nofun, hk, nofun, nofun⟩) hm rfl

/-- A step of a driver command other than SEND_PACKET, outside a WRITE. -/
structure PlainStep (u : HUpc) : Prop where
  driver : driverCommand u = true
  holds : hostHolds u = false
  header : initHeaderSet u = false
  init : initRunning u = false
  asleep : initAsleep u = false
  closed : writeOpened u = false
  frame : ∀ src dst n k, u ≠ .sendPacket src dst n k

/-- A driver command goes from plain step to plain step. -/
theorem inv_plainGoes (h : Inv s) (hs : PlainStep s.hupc) (hu : PlainStep u) : Inv { s with hupc := u } :=
  inv_follows h
    { holds := hu.holds.trans hs.holds.symm
      init := fun hi => by simp [hu.init] at hi
      driver := fun _ => hs.driver
      header := fun hh => by simp [hu.header] at hh
      await := fun src dst n => hu.frame src dst n _
      frame := fun src dst n k hk => absurd hk (hu.frame src dst n k) }
    (fun hm => absurd hm (mode_ne_sleep h hs.asleep)) hu.closed

/-- A driver command answers from a plain step. -/
theorem inv_plainAnswers (h : Inv s) (hs : PlainStep s.hupc) (v : Status) (bytes : List Byte) :
    Inv (respond v bytes s) := inv_answers h hs.holds (mode_ne_sleep h hs.asleep) v bytes

end

/-! ### The steps of HCTX -/

section
variable {s : State}

theorem inv_stepResetPins (h : Inv s) {k : ResetStep} (hs : s.hupc = .resetPins k) : Inv (stepResetPins k s) := by
  have hawake : s.mode ≠ .sleep := mode_ne_sleep h (by rw [hs]; rfl)
  have hgo : ∀ {t : State} (j : ResetStep), Inv t → t.hupc = s.hupc → t.mode = s.mode →
      Inv { t with hupc := .resetPins j } := fun j ht hu hm =>
    inv_follows ht (hu.trans hs ▸ ⟨rfl, nofun, nofun, nofun, nofun, nofun⟩) (fun hsleep => absurd (hm ▸ hsleep) hawake) rfl
  cases k with
  | s1 => exact hgo .s2 (inv_driveCs h) rfl rfl
  | s2 => exact hgo .s3 (inv_driveRst h .low) rfl rfl
  | s3 => exact hgo .s4 h rfl rfl
  | s4 => exact hgo .s5 (inv_driveRst h .high) rfl rfl
  | s5 => exact hgo .s6 h rfl rfl
  | s6 =>
    have hpins : Inv { s with pinsReady := true } := { h with pins := fun _ => rfl, initPins := fun _ => rfl }
    exact inv_answers hpins (by rw [hs]; rfl) hawake _ _

/-- i0 leaves no driver, so HDR may be unknown. -/
theorem inv_initEntry (h : Inv s) {p : RadioParameters} (hs : s.hupc = .init p .i0) : Inv (initEntry s) :=
  { h with
    pins := nofun
    header := nofun
    initHeader := fun hi => by rw [initEntry, hs] at hi; cases hi
    driver := fun hd => by rw [initEntry, hs] at hd; cases hd }

theorem inv_stepInit (h : Inv s) {p : RadioParameters} {k : InitStep} (hs : s.hupc = .init p k) :
    Inv (stepInit p k s) := by
  have hholds : hostHolds s.hupc = false := by rw [hs]; rfl
  have hwrite := fun a v => inv_hostWrite h a v
  have hmerge := fun a mask bits => inv_hostMerge h a mask bits
  cases k with
  | i0 =>
    have hawake : s.mode ≠ .sleep := mode_ne_sleep h (by rw [hs]; rfl)
    exact inv_initGoes (inv_initEntry h hs) hs nofun fun hm => absurd hm hawake
  | i1 =>
    have hawake : s.mode ≠ .sleep := mode_ne_sleep h (by rw [hs]; rfl)
    have hread := inv_hostRead h s.cfg.regs.version
    simp only [stepInit, initVersion]
    split
    · exact inv_initGoes hread hs nofun fun hm => absurd hm hawake
    · exact inv_answers (inv_emitDiag hread _ _ _) hholds hawake _ _
  | i2 =>
    have hgo : Inv { hostWrite s.cfg.regs.opMode (modeByte s.cfg s.cfg.opmodeSleep) s with hupc := .init p .i3 } :=
      inv_initGoes (hwrite _ _) hs nofun fun _ => rfl
    exact { hgo with modeReachable := nofun, sleeping := fun _ => rfl }
  | i12 =>
    have hread : Inv (headerRead p.implicitHeader s) :=
      inv_hostRead (inv_setHdr h (wantedHeader_ne_unknown p.implicitHeader)) _
    have hgo : Inv { headerRead p.implicitHeader s with hupc := .init p .i12 } := by
      have hu : (headerRead p.implicitHeader s).hupc = .init p .i12 := hs
      rw [← hu]
      exact hread
    exact { hgo with
      initHeader := fun _ => wantedHeader_ne_unknown p.implicitHeader
      await := nofun, frame := nofun, writeLoop := nofun, writeCapacity := nofun, driver := nofun }
  | i25 =>
    have hmode : Inv (seqStandby s) := inv_setMode (hwrite _ _) nofun nofun
    have hready : Inv { seqStandby s with drv := .ready } :=
      { hmode with
        pins := fun _ => h.initPins (by rw [hs]; rfl)
        header := fun _ => h.initHeader (by rw [hs]; rfl)
        driver := fun _ => rfl }
    exact inv_answers hready hholds nofun _ _
  | i3 => exact inv_initGoes (inv_freqMsb h _) hs nofun fun _ => rfl
  | i6 => exact inv_initGoes (inv_bandwidthRead h _) hs nofun fun _ => rfl
  | i8 => exact inv_initGoes (inv_hostRead h _) hs nofun fun _ => rfl
  | i14 | i16 | i21 => exact inv_initGoes (inv_hostRead h _) hs (fun _ => rfl) fun _ => rfl
  | i7 | i9 => exact inv_initGoes (hmerge _ _ _) hs nofun fun _ => rfl
  | i13 | i15 | i17 | i22 => exact inv_initGoes (hmerge _ _ _) hs (fun _ => rfl) fun _ => rfl
  | i4 | i5 | i10 | i11 => exact inv_initGoes (hwrite _ _) hs nofun fun _ => rfl
  | i18 | i19 | i20 | i23 | i24 => exact inv_initGoes (hwrite _ _) hs (fun _ => rfl) fun _ => rfl

theorem inv_seqStandby (h : Inv s) : Inv (seqStandby s) := inv_setMode (inv_hostWrite h _ _) nofun nofun

theorem inv_enterTx (h : Inv s) : Inv (enterTx s) := inv_setMode (inv_hostWrite h _ _) nofun nofun

theorem inv_enterRx (h : Inv s) : Inv (enterRx s) := inv_setMode (inv_hostWrite h _ _) nofun nofun

theorem inv_headerRead (h : Inv s) (b : Bool) : Inv (headerRead b s) :=
  inv_hostRead (inv_setHdr h (wantedHeader_ne_unknown b)) _

theorem inv_stepBeginPacket (h : Inv s) {k : BeginStep} (hs : s.hupc = .beginPacket k) : Inv (stepBeginPacket k s) := by
  have hplain : ∀ j, PlainStep (.beginPacket j) := fun j => ⟨rfl, rfl, rfl, rfl, rfl, rfl, nofun⟩
  have hat : PlainStep s.hupc := hs ▸ hplain k
  cases k with
  | b1 => exact inv_plainGoes (inv_seqStandby h) hat (hplain .b2)
  | b2 => exact inv_plainGoes (inv_hostWrite h _ _) hat (hplain .b3)
  | b3 => exact inv_plainAnswers (inv_hostWrite h _ _) hat _ _

theorem inv_stepEndPacket (h : Inv s) {k : EndStep} (hs : s.hupc = .endPacket k) : Inv (stepEndPacket k s) := by
  have hplain : ∀ j, PlainStep (.endPacket j) := fun j => ⟨rfl, rfl, rfl, rfl, rfl, rfl, nofun⟩
  have hat : PlainStep s.hupc := hs ▸ hplain k
  cases k with
  | e1 => exact inv_plainGoes (inv_armTransmit h) hat (hplain _)
  | e2 => exact inv_plainGoes (inv_hostWrite h _ _) hat (hplain .e3)
  | e3 => exact inv_plainAnswers (inv_enterTx h) hat _ _

theorem inv_stepReceive (h : Inv s) {size : Byte} {k : ReceiveStep} (hs : s.hupc = .receive size k) :
    Inv (stepReceive size k s) := by
  have hplain : ∀ j, PlainStep (.receive size j) := fun j => ⟨rfl, rfl, rfl, rfl, rfl, rfl, nofun⟩
  have hat : PlainStep s.hupc := hs ▸ hplain k
  cases k with
  | v1 =>
    simp only [stepReceive]
    split
    · exact inv_plainGoes h hat (hplain _)
    · exact inv_plainGoes (inv_headerRead h _) hat (hplain .v2)
  | v2 => exact inv_plainGoes (inv_hostMerge h _ _ _) hat (hplain _)
  | v3 => exact inv_plainGoes (inv_hostWrite h _ _) hat (hplain .v4)
  | v4 => exact inv_plainGoes (inv_armReceive h) hat (hplain _)
  | v5 => exact inv_plainGoes (inv_hostWrite h _ _) hat (hplain .v6)
  | v6 => exact inv_plainAnswers (inv_enterRx h) hat _ _

theorem inv_stepSetFrequency (h : Inv s) {f : Hz} {k : FreqStep} (hs : s.hupc = .setFrequency f k) :
    Inv (stepSetFrequency f k s) := by
  have hplain : ∀ j, PlainStep (.setFrequency f j) := fun j => ⟨rfl, rfl, rfl, rfl, rfl, rfl, nofun⟩
  have hat : PlainStep s.hupc := hs ▸ hplain k
  cases k with
  | f1 => exact inv_plainGoes (inv_freqMsb h _) hat (hplain .f2)
  | f2 => exact inv_plainGoes (inv_hostWrite h _ _) hat (hplain .f3)
  | f3 => exact inv_plainAnswers (inv_hostWrite h _ _) hat _ _

theorem inv_stepSetBandwidth (h : Inv s) {w : Hz} {k : RmwStep} (hs : s.hupc = .setBandwidth w k) :
    Inv (stepSetBandwidth w k s) := by
  have hplain : ∀ j, PlainStep (.setBandwidth w j) := fun j => ⟨rfl, rfl, rfl, rfl, rfl, rfl, nofun⟩
  have hat : PlainStep s.hupc := hs ▸ hplain k
  cases k with
  | x1 => exact inv_plainGoes (inv_bandwidthRead h _) hat (hplain .x2)
  | x2 => exact inv_plainAnswers (inv_hostMerge h _ _ _) hat _ _

theorem inv_stepSetSf (h : Inv s) {b : Byte} {k : RmwStep} (hs : s.hupc = .setSf b k) : Inv (stepSetSf b k s) := by
  have hplain : ∀ j, PlainStep (.setSf b j) := fun j => ⟨rfl, rfl, rfl, rfl, rfl, rfl, nofun⟩
  have hat : PlainStep s.hupc := hs ▸ hplain k
  cases k with
  | x1 => exact inv_plainGoes (inv_hostRead h _) hat (hplain .x2)
  | x2 => exact inv_plainAnswers (inv_hostMerge h _ _ _) hat _ _

theorem inv_stepSetCr (h : Inv s) {b : Byte} {k : RmwStep} (hs : s.hupc = .setCr b k) : Inv (stepSetCr b k s) := by
  have hplain : ∀ j, PlainStep (.setCr b j) := fun j => ⟨rfl, rfl, rfl, rfl, rfl, rfl, nofun⟩
  have hat : PlainStep s.hupc := hs ▸ hplain k
  cases k with
  | x1 => exact inv_plainGoes (inv_hostRead h _) hat (hplain .x2)
  | x2 => exact inv_plainAnswers (inv_hostMerge h _ _ _) hat _ _

theorem inv_stepSetPreamble (h : Inv s) {len : BitVec 16} {k : PreambleStep} (hs : s.hupc = .setPreamble len k) :
    Inv (stepSetPreamble len k s) := by
  have hplain : ∀ j, PlainStep (.setPreamble len j) := fun j => ⟨rfl, rfl, rfl, rfl, rfl, rfl, nofun⟩
  have hat : PlainStep s.hupc := hs ▸ hplain k
  cases k with
  | m1 => exact inv_plainGoes (inv_hostWrite h _ _) hat (hplain .m2)
  | m2 => exact inv_plainAnswers (inv_hostWrite h _ _) hat _ _

theorem inv_stepEnableCrc (h : Inv s) {e : Bool} {k : RmwStep} (hs : s.hupc = .enableCrc e k) :
    Inv (stepEnableCrc e k s) := by
  have hplain : ∀ j, PlainStep (.enableCrc e j) := fun j => ⟨rfl, rfl, rfl, rfl, rfl, rfl, nofun⟩
  have hat : PlainStep s.hupc := hs ▸ hplain k
  cases k with
  | x1 => exact inv_plainGoes (inv_hostRead h _) hat (hplain .x2)
  | x2 => exact inv_plainAnswers (inv_hostMerge h _ _ _) hat _ _

theorem inv_stepImplicitHeader (h : Inv s) {e : Bool} {k : HeaderStep} (hs : s.hupc = .implicitHeader e k) :
    Inv (stepImplicitHeader e k s) := by
  have hplain : ∀ j, PlainStep (.implicitHeader e j) := fun j => ⟨rfl, rfl, rfl, rfl, rfl, rfl, nofun⟩
  have hat : PlainStep s.hupc := hs ▸ hplain k
  cases k with
  | h1 =>
    simp only [stepImplicitHeader]
    split
    · exact inv_plainAnswers h hat _ _
    · exact inv_plainGoes (inv_headerRead h _) hat (hplain .h2)
  | h2 => exact inv_plainAnswers (inv_hostMerge h _ _ _) hat _ _

/-! ### WRITE, alone and inside SEND_PACKET -/

/-- `at_` names the steps of a WRITE: they keep or do not hold the lock together, and w3 is outside the loop. -/
structure WriteAt (at_ : WriteStep → HUpc) : Prop where
  follows : ∀ j k, Follows (at_ j) (at_ k)
  asleep : ∀ k, initAsleep (at_ k) = false
  first : writeOpened (at_ .w1) = false
  last : writing (at_ .w3) = false
  opened : ∀ k, k ≠ .w1 → writeOpened (at_ k) = true

theorem writeAt_write (n : Nat) : WriteAt (.write n) where
  follows _ _ := ⟨rfl, nofun, fun _ => rfl, nofun, nofun, nofun⟩
  asleep _ := rfl
  first := rfl
  last := rfl
  opened k hk := by cases k with
    | w1 => contradiction
    | w2 | w3 => rfl

theorem writeAt_s8 (src dst : Byte) (n : Nat) : WriteAt fun k => .sendPacket src dst n (.s8 k) where
  follows j _ := ⟨rfl, nofun, fun _ => rfl, nofun, nofun, fun _ _ _ _ h =>
    ⟨.s8 j, by injection h with h1 h2 h3; rw [h1, h2, h3]⟩⟩
  asleep _ := rfl
  first := rfl
  last := rfl
  opened k hk := by cases k with
    | w1 => contradiction
    | w2 | w3 => rfl

theorem writeAt_s9 (src dst : Byte) (n : Nat) : WriteAt fun k => .sendPacket src dst n (.s9 k) where
  follows j _ := ⟨rfl, nofun, fun _ => rfl, nofun, nofun, fun _ _ _ _ h =>
    ⟨.s9 j, by injection h with h1 h2 h3; rw [h1, h2, h3]⟩⟩
  asleep _ := rfl
  first := rfl
  last := rfl
  opened k hk := by cases k with
    | w1 => contradiction
    | w2 | w3 => rfl

/-- The number of bytes WRITE will write fits beside those already there (R155, R117 d). -/
theorem writeCount_capacity (n : Nat) (cur : Byte) : cur.toNat + (writeCount n cur).toNat ≤ 255 := by
  have hcur := cur.isLt
  simp only [writeCount, maxPktLength, BitVec.toNat_ofNat]
  omega

section
variable {at_ : WriteStep → HUpc} (hat : WriteAt at_)
include hat

/-- WRITE goes on, in its loop only below K. -/
theorem inv_writeGoes {t : State} {j : WriteStep} (h : Inv t) (hs : t.hupc = at_ j)
    (hc : t.hctx.cur.toNat + t.hctx.k.toNat ≤ 255) : Inv { t with hupc := at_ (writeNext t) } := by
  refine inv_moves h (hs ▸ hat.follows j _) (fun hm => absurd hm (mode_ne_sleep h (hs ▸ hat.asleep j))) (fun hw => ?_)
    fun _ => hc
  unfold writeNext at hw
  split at hw
  · assumption
  · simp [hat.last] at hw

/-- w1 sets the counters. -/
theorem inv_writeOpen (h : Inv s) (hs : s.hupc = at_ .w1) (n : Nat) :
    Inv { writeOpen n s with hupc := at_ (writeNext (writeOpen n s)) } := by
  have hclosed : ¬ writeOpened s.hupc = true := by simp [hs, hat.first]
  have hopen : Inv (writeOpen n s) :=
    { inv_hostRead h s.cfg.regs.payloadLength with
      writeLoop := fun hw => absurd (writeOpened_of_writing hw) hclosed
      writeCapacity := fun hc => absurd hc hclosed }
  exact inv_writeGoes hat hopen hs (writeCount_capacity n _)

/-- An iteration of w2 leaves CUR and K, and the loop is left at K. -/
theorem inv_writeByte (h : Inv s) (hs : s.hupc = at_ .w2) (source : List Byte) :
    Inv { writeByte source s with hupc := at_ (writeNext (writeByte source s)) } := by
  have hc : s.hctx.cur.toNat + s.hctx.k.toNat ≤ 255 := h.writeCapacity (hs ▸ hat.opened .w2 nofun)
  have hleft : Inv { s with hupc := at_ .w3 } :=
    inv_moves h (hs ▸ hat.follows .w2 .w3) (fun hm => absurd hm (mode_ne_sleep h (hs ▸ hat.asleep .w2)))
      (fun hw => by simp [hat.last] at hw) fun _ => hc
  have hbyte : Inv { writeByte source s with hupc := at_ .w3 } :=
    { inv_hostWrite hleft s.cfg.regs.fifo (source.getD s.hctx.cnt.toNat 0) with
      writeLoop := fun hw => by simp [hat.last] at hw }
  exact inv_writeGoes hat (t := { writeByte source s with hupc := at_ .w3 }) hbyte rfl hc

end

theorem inv_stepWrite (h : Inv s) {n : Nat} {k : WriteStep} (hs : s.hupc = .write n k) : Inv (stepWrite n k s) := by
  cases k with
  | w1 => exact inv_writeOpen (writeAt_write n) h hs n
  | w2 => exact inv_writeByte (writeAt_write n) h hs s.txb
  | w3 =>
    exact inv_answers (inv_hostWrite h _ _) (by rw [hostWrite_hupc, hs]; rfl)
      (mode_ne_sleep (s := s) h (by rw [hs]; rfl)) _ _

/-! ### SEND_PACKET -/

/-- SEND_PACKET goes from step to step, as long as it keeps or does not hold the lock. -/
theorem inv_sendGoes {src dst : Byte} {n : Nat} {j k : SendStep} (h : Inv s) (hs : s.hupc = .sendPacket src dst n j)
    (hh : hostHolds (.sendPacket src dst n k) = hostHolds (.sendPacket src dst n j))
    (hc : writeOpened (.sendPacket src dst n k) = false) (ha : k ≠ .s15Await) :
    Inv { s with hupc := .sendPacket src dst n k } := by
  refine inv_follows h (hs ▸ ⟨hh, nofun, fun _ => rfl, nofun, fun _ _ _ hk => ha (by injection hk),
    fun _ _ _ _ hk => ⟨j, ?_⟩⟩)
    (fun hm => absurd hm (mode_ne_sleep h (by rw [hs]; rfl))) hc
  injection hk with h1 h2 h3
  rw [h1, h2, h3]

/-- SEND_PACKET goes from step to step while it takes or releases the lock, which ICTX does not hold. -/
theorem inv_sendLocks {src dst : Byte} {n : Nat} {j k : SendStep} {l : Lock} (h : Inv s)
    (hs : s.hupc = .sendPacket src dst n j) (hfrom : s.lock ≠ .heldByIrq) (hto : l ≠ .heldByIrq)
    (hh : l = .heldByHost ↔ hostHolds (.sendPacket src dst n k) = true)
    (hc : writeOpened (.sendPacket src dst n k) = false) (ha : k ≠ .s15Await) :
    Inv { s with lock := l, hupc := .sendPacket src dst n k } :=
  have hawake : s.mode ≠ .sleep := mode_ne_sleep h (by rw [hs]; rfl)
  have hclosed : ¬ writeOpened (.sendPacket src dst n k) = true := by simp [hc]
  { h with
    hostLock := hh
    irqLock := ⟨fun hl => absurd hl hto, fun hi => absurd (h.irqLock.2 hi) hfrom⟩
    initPins := nofun
    driver := fun _ => h.driver (by rw [hs]; rfl)
    initHeader := nofun
    await := fun _ _ _ hk => absurd (by injection hk) ha
    sleeping := fun hm => absurd hm hawake
    frame := fun _ _ _ _ hk => h.frame _ _ _ j (by injection hk with h1 h2 h3; rw [hs, h1, h2, h3])
    writeLoop := fun hw => absurd (writeOpened_of_writing hw) hclosed
    writeCapacity := fun hw => absurd hw hclosed }

/-- The poll loop's test holds only below POLL_MAX (R212 s15). -/
theorem pcnt_lt_of_pollAgain (h : pollAgain s = true) : s.pcnt.toNat < s.cfg.pollMax.toNat := by
  simp only [pollAgain, Bool.and_eq_true, decide_eq_true_eq] at h
  exact h.2

/-- s15 awaits a tick below POLL_MAX, or leaves the loop. -/
theorem inv_sendPoll {src dst : Byte} {n : Nat} (h : Inv s) (hs : s.hupc = .sendPacket src dst n .s15) :
    Inv (sendPoll (.sendPacket src dst n .s15Await) (.sendPacket src dst n .s16) s) := by
  have hleave : Inv { s with hupc := .sendPacket src dst n .s16 } := inv_sendGoes h hs rfl rfl nofun
  unfold sendPoll
  split
  · next hagain =>
    exact { hleave with
      hostLock := hleave.hostLock
      initPins := nofun
      driver := hleave.driver
      initHeader := nofun
      await := fun _ _ _ _ => pcnt_lt_of_pollAgain hagain
      sleeping := hleave.sleeping
      frame := fun _ _ _ _ hk => hleave.frame _ _ _ .s16 (by injection hk with h1 h2 h3; rw [h1, h2, h3])
      writeLoop := nofun
      writeCapacity := nofun }
  · exact hleave

/-- s16 answers, with or without a Diag event. -/
theorem inv_sendFinish {src dst : Byte} {n : Nat} (h : Inv s) (hs : s.hupc = .sendPacket src dst n .s16) :
    Inv (sendFinish s) := by
  have hholds : hostHolds s.hupc = false := by rw [hs]; rfl
  have hawake : s.mode ≠ .sleep := mode_ne_sleep h (by rw [hs]; rfl)
  unfold sendFinish
  split
  · exact inv_answers h hholds hawake _ _
  · exact inv_answers (inv_emitDiag h _ _ _) hholds hawake _ _

theorem inv_stepSendPacket (h : Inv s) {src dst : Byte} {n : Nat} {k : SendStep} (hs : s.hupc = .sendPacket src dst n k) :
    Inv (stepSendPacket src dst n k s) := by
  have hwrite := fun a v => inv_hostWrite h a v
  cases k with
  | s1 =>
    have hseq : Inv { s with seq := s.seq + 1 } := { h with }
    exact inv_sendGoes hseq hs rfl rfl nofun
  | s2 =>
    have hdone : Inv { s with txDone := false } := { h with }
    exact inv_sendGoes hdone hs rfl rfl nofun
  | s3 =>
    obtain ⟨hfree, heq⟩ | ⟨-, heq⟩ := sendAcquire_cases (.sendPacket src dst n .s4) s
    · simp only [stepSendPacket, heq]
      exact inv_sendLocks h hs (by rw [hfree]; nofun) nofun ⟨fun _ => rfl, fun _ => rfl⟩ rfl nofun
    · simp only [stepSendPacket, heq]
      exact h
  | s4 => exact inv_sendGoes (inv_seqStandby h) hs rfl rfl nofun
  | s5 => exact inv_sendGoes (hwrite _ _) hs rfl rfl nofun
  | s6 => exact inv_sendGoes (hwrite _ _) hs rfl rfl nofun
  | s7 =>
    have hhb : Inv { s with hctx := { s.hctx with hb := frameHeader src dst s.seq n } } :=
      { h with buffers := ⟨h.buffers.1, h.buffers.2.1, rfl⟩ }
    exact inv_sendGoes hhb hs rfl rfl nofun
  | s8 w =>
    cases w with
    | w1 => exact inv_writeOpen (writeAt_s8 src dst n) h hs headerLen
    | w2 => exact inv_writeByte (writeAt_s8 src dst n) h hs s.hctx.hb
    | w3 => exact inv_sendGoes (hwrite _ _) hs rfl rfl nofun
  | s9 w =>
    cases w with
    | w1 => exact inv_writeOpen (writeAt_s9 src dst n) h hs n
    | w2 => exact inv_writeByte (writeAt_s9 src dst n) h hs s.txb
    | w3 => exact inv_sendGoes (hwrite _ _) hs rfl rfl nofun
  | s10 =>
    simp only [stepSendPacket]
    split <;> exact inv_sendGoes (inv_armTransmit h) hs rfl rfl nofun
  | s11 => exact inv_sendGoes (hwrite _ _) hs rfl rfl nofun
  | s12 => exact inv_sendGoes (inv_enterTx h) hs rfl rfl nofun
  | s13 =>
    have hheld : s.lock = .heldByHost := h.hostLock.2 (by rw [hs]; rfl)
    exact inv_sendLocks (s := s) h hs (by rw [hheld]; nofun) nofun ⟨nofun, nofun⟩ rfl nofun
  | s14 =>
    have hzero : Inv { s with pcnt := 0 } :=
      { h with poll := Nat.zero_le _, await := fun _ _ _ hk => by rw [hs] at hk; cases hk }
    exact inv_sendGoes hzero hs rfl rfl nofun
  | s15 => exact inv_sendPoll h hs
  | s15Await => exact h
  | s16 => exact inv_sendFinish h hs

/-- Every step of HCTX keeps the invariant. -/
theorem inv_hostStep (h : Inv s) : Inv (hostStep s) := by
  cases hs : s.hupc <;> simp only [hostStep, hs]
  case idle => exact h
  case resetPins => exact inv_stepResetPins h hs
  case init => exact inv_stepInit h hs
  case beginPacket => exact inv_stepBeginPacket h hs
  case write => exact inv_stepWrite h hs
  case endPacket => exact inv_stepEndPacket h hs
  case receive => exact inv_stepReceive h hs
  case setFrequency => exact inv_stepSetFrequency h hs
  case setBandwidth => exact inv_stepSetBandwidth h hs
  case setSf => exact inv_stepSetSf h hs
  case setCr => exact inv_stepSetCr h hs
  case setPreamble => exact inv_stepSetPreamble h hs
  case enableCrc => exact inv_stepEnableCrc h hs
  case implicitHeader => exact inv_stepImplicitHeader h hs
  case sendPacket => exact inv_stepSendPacket h hs
  all_goals have hat : PlainStep s.hupc := hs ▸ ⟨rfl, rfl, rfl, rfl, rfl, rfl, nofun⟩
  case setSync | setTxPower => exact inv_plainAnswers (inv_hostWrite h _ _) hat _ _
  case packetRssi | packetSnr => exact inv_plainAnswers (inv_hostRead h _) hat _ _
  case isPacketAvailable => exact inv_plainAnswers h hat _ _
  case readPacket => exact inv_plainAnswers (inv_clearSlot h) hat _ _
  case onReceive e =>
    have hbit : Inv { s with rxcb := e } := { h with }
    exact inv_plainAnswers hbit hat _ _
  case onTransmit e =>
    have hbit : Inv { s with txcb := e } := { h with }
    exact inv_plainAnswers hbit hat _ _
  case attach =>
    have hreset : Inv { s with
        rxcb := true, txcb := true, seq := 0, txDone := false, slot := { s.slot with valid := false } } :=
      { inv_clearSlot h with }
    exact inv_plainAnswers hreset hat _ _

end

end Sys2Proof.Proofs
end

section
/-!
The invariant (70_reset_and_hazards.md R319) in the steps of ICTX, in the moves that are no step of a context, and in a whole
step of the machine.
-/
namespace Sys2Proof.Proofs
open Sys2Proof.Machine

section
variable {s : State}

/-! ### Moves of IUPC -/

/-- A move of IUPC that keeps or does not hold the lock keeps the invariant, if what was read allows the new step. -/
theorem inv_irqMoves {u : IUpc} (h : Inv s) (hh : irqHolds u = irqHolds s.iupc)
    (hp : parsing u = true → 4 < s.ictx.n.toNat) (hr : ∀ r, u = .isrRx (.c5 r) → -164 ≤ r ∧ r ≤ 98)
    (hl : u = .isrRx .r8 → s.ictx.icnt.toNat < s.ictx.n.toNat) : Inv { s with iupc := u } :=
  { h with irqLock := hh ▸ h.irqLock, parsed := hp, rssiRange := hr, readLoop := hl }

/-- A step of ICTX outside ISR_RX's loop and the parsing of a frame. -/
structure PlainIrqStep (u : IUpc) : Prop where
  parsing : parsing u = false
  loop : u ≠ .isrRx .r8

theorem plain_ne_c5 {u : IUpc} (h : PlainIrqStep u) (r : Int) : u ≠ .isrRx (.c5 r) := fun hr =>
  Bool.false_ne_true (h.parsing.symm.trans (hr ▸ rfl))

/-- ICTX goes to a plain step. -/
theorem inv_irqGoes {u : IUpc} (h : Inv s) (hu : PlainIrqStep u) (hh : irqHolds u = irqHolds s.iupc) :
    Inv { s with iupc := u } :=
  inv_irqMoves h hh (fun hp => by simp [hu.parsing] at hp) (fun r hr => absurd hr (plain_ne_c5 hu r))
    fun hl => absurd hl hu.loop

/-- ICTX goes to a plain step while it takes or releases the lock, which HCTX does not hold. -/
theorem inv_irqLocks {u : IUpc} {l : Lock} (h : Inv s) (hu : PlainIrqStep u) (hfrom : s.lock ≠ .heldByHost)
    (hto : l ≠ .heldByHost) (hh : l = .heldByIrq ↔ irqHolds u = true) : Inv { s with lock := l, iupc := u } :=
  { h with
    hostLock := ⟨fun hl => absurd hl hto, fun hs => absurd (h.hostLock.2 hs) hfrom⟩
    irqLock := hh
    parsed := fun hp => by simp [hu.parsing] at hp
    rssiRange := fun r hr => absurd hr (plain_ne_c5 hu r)
    readLoop := fun hl => absurd hl hu.loop }

/-- A step that holds the lock releases it (R33). -/
theorem inv_irqReleases {u : IUpc} (h : Inv s) (hu : PlainIrqStep u) (hfrom : irqHolds s.iupc = true)
    (hto : irqHolds u = false) : Inv { s with lock := .free, iupc := u } :=
  inv_irqLocks h hu (by rw [h.irqLock.2 hfrom]; nofun) nofun ⟨nofun, fun hi => by simp [hto] at hi⟩

/-- r1, t1: the lock is taken if it is free. -/
theorem inv_irqAcquire {u : IUpc} (h : Inv s) (hu : PlainIrqStep u) (hto : irqHolds u = true) : Inv (irqAcquire u s) := by
  obtain ⟨hfree, heq⟩ | ⟨-, heq⟩ := irqAcquire_cases u s
  · rw [heq]
    exact inv_irqLocks h hu (by rw [hfree]; nofun) nofun ⟨fun _ => hto, fun _ => rfl⟩
  · rw [heq]
    exact h

/-- r11, t8: the lock is released and the service ends. -/
theorem inv_raiseAnomaly (h : Inv s) (hfrom : irqHolds s.iupc = true) (reason : AnomalyReason) :
    Inv (raiseAnomaly reason s) := by
  rw [raiseAnomaly_eq]
  exact { inv_irqReleases h (u := .idle) ⟨rfl, nofun⟩ hfrom rfl with }

/-! ### The re-arm -/

/-- The steps of the re-arm are plain and come after the release of the lock. -/
structure RearmAt (at_ : RearmStep → IUpc) : Prop where
  plain : ∀ k, PlainIrqStep (at_ k)
  holds : ∀ k, irqHolds (at_ k) = false

theorem inv_endService (h : Inv s) (hs : irqHolds s.iupc = false) : Inv (endService s) :=
  inv_irqGoes h (u := .idle) ⟨rfl, nofun⟩ hs.symm

theorem inv_stepRearm {at_ : RearmStep → IUpc} (hat : RearmAt at_) {k : RearmStep} (h : Inv s) (hs : s.iupc = at_ k) :
    Inv (stepRearm at_ k s) := by
  have hfree : irqHolds s.iupc = false := hs ▸ hat.holds k
  have hgo : ∀ {t : State} (j : RearmStep), Inv t → t.iupc = s.iupc → Inv { t with iupc := at_ j } := fun j ht hu =>
    inv_irqGoes ht (hat.plain j) (by rw [hat.holds j, hu, hfree])
  cases k with
  | v1 =>
    simp only [stepRearm]
    split
    · exact hgo .v4 h rfl
    · exact hgo .v2 (inv_irqRead (inv_setHdr h (m := .explicit) nofun) _) rfl
  | v2 => exact hgo .v4 (inv_irqMerge h _ _ _) rfl
  | v4 =>
    simp only [stepRearm]
    split
    · exact hgo .v5 (inv_armReceive h) rfl
    · exact hgo .v6 (inv_armReceive h) rfl
  | v5 => exact hgo .v6 (inv_irqWrite h _ _) rfl
  | v6 => exact inv_endService (inv_setMode (inv_irqWrite h _ _) nofun nofun) hfree

/-! ### ISR_RX -/

/-- The reads that name F, A, RSSI_RAW or SNR_RAW beside IT. -/
theorem inv_readFlags (h : Inv s) : Inv (readFlags s) := { inv_irqRead h s.cfg.regs.irqFlags with }

theorem inv_readRxAddress (h : Inv s) : Inv (readRxAddress s) := { inv_irqRead h s.cfg.regs.fifoRxCurrentAddr with }

theorem inv_readRssi (h : Inv s) : Inv (readRssi s) := { inv_irqRead h s.cfg.regs.pktRssiValue with }

theorem inv_readSnr (h : Inv s) : Inv (readSnr s) := { inv_irqRead h s.cfg.regs.pktSnrValue with }

/-- ISR_RX goes into its loop only below N. -/
theorem inv_rxNext (h : Inv s) (hs : irqHolds s.iupc = true) : Inv { s with iupc := .isrRx (rxNext s) } := by
  unfold rxNext
  split
  · next hlt => exact inv_irqMoves h hs.symm nofun nofun fun _ => hlt
  · exact inv_irqMoves h hs.symm nofun nofun nofun

/-- r7 sets N and ICNT. -/
theorem inv_readRxLength (h : Inv s) (hs : s.iupc = .isrRx .r7) :
    Inv { readRxLength s with iupc := .isrRx (rxNext (readRxLength s)) } := by
  have hread : Inv (readRxLength s) :=
    { inv_irqRead h (lengthReg s) with
      parsed := fun hp => by change parsing s.iupc = true at hp; rw [hs] at hp; cases hp
      readLoop := fun hl => by change s.iupc = _ at hl; rw [hs] at hl; cases hl }
  exact inv_rxNext hread (by change irqHolds s.iupc = true; rw [hs]; rfl)

/-- An iteration of r8 keeps the length of RXBUF, and the loop is left at N. -/
theorem inv_readRxByte (h : Inv s) (hs : s.iupc = .isrRx .r8) :
    Inv { readRxByte s with iupc := .isrRx (rxNext (readRxByte s)) } := by
  have hleft : Inv { s with iupc := .isrRx .r9 } := inv_irqGoes h ⟨rfl, nofun⟩ (by rw [hs]; rfl)
  have hread : Inv { readRxByte s with iupc := .isrRx .r9 } :=
    { inv_irqRead hleft s.cfg.regs.fifo with
      buffers := ⟨h.buffers.1, (List.length_set ..).trans h.buffers.2.1, h.buffers.2.2⟩
      parsed := nofun
      readLoop := nofun }
  exact inv_rxNext (s := { readRxByte s with iupc := .isrRx .r9 }) hread rfl

/-- A well-formed raw payload gives a slot of 1 to 251 bytes (R250 c5). -/
theorem parseFrame_count {raw : List Byte} (hmin : 4 < raw.length) (hmax : raw.length ≤ 255) (rssi : Int) (q : Byte) :
    1 ≤ (parseFrame raw rssi q).count.toNat ∧ (parseFrame raw rssi q).count.toNat ≤ 251 ∧
      (parseFrame raw rssi q).payload.length = (parseFrame raw rssi q).count.toNat := by
  simp only [parseFrame, headerLen, BitVec.toNat_ofNat, List.length_drop]
  omega

/-- The raw payload has N bytes. -/
theorem rawPayload_length (h : Inv s) : (rawPayload s).length = s.ictx.n.toNat := by
  have hn := s.ictx.n.isLt
  rw [rawPayload, List.length_take, h.buffers.2.1]
  omega

/-- c5 fills the slot from a well-formed raw payload. -/
theorem inv_storePacket (h : Inv s) {r : Int} (hs : s.iupc = .isrRx (.c5 r)) : Inv (storePacket r s) := by
  have hn : 4 < s.ictx.n.toNat := h.parsed (by rw [hs]; rfl)
  have hmax := s.ictx.n.isLt
  have hcount := parseFrame_count (raw := rawPayload s) (by rw [rawPayload_length h]; exact hn)
    (by rw [rawPayload_length h]; omega) r s.ictx.snrRaw
  exact { h with slotCount := fun _ => hcount, slotRssi := fun _ => h.rssiRange r hs }

theorem inv_checkFrame (h : Inv s) (hs : irqHolds s.iupc = false) : Inv (checkFrame s) := by
  unfold checkFrame
  split
  · exact inv_irqGoes (inv_emitDiag h _ _ _) ⟨rfl, nofun⟩ hs.symm
  · next hlong => exact inv_irqMoves h hs.symm (fun _ => Nat.not_le.1 hlong) nofun nofun

theorem inv_stepIsrRx (h : Inv s) {k : RxStep} (hs : s.iupc = .isrRx k) : Inv (stepIsrRx k s) := by
  have hplain : ∀ {j : RxStep}, parsing (.isrRx j) = false → j ≠ .r8 → PlainIrqStep (.isrRx j) := fun hp hl =>
    ⟨hp, fun he => hl (by injection he)⟩
  have hlock : ∀ j, irqHolds (.isrRx j) = irqHolds (.isrRx k) → irqHolds (.isrRx j) = irqHolds s.iupc := fun _ hj =>
    hs ▸ hj
  cases k with
  | r1 => exact inv_irqAcquire h (hplain rfl nofun) rfl
  | r2 => exact inv_irqGoes (inv_readFlags h) (hplain rfl nofun) (hlock .r3 rfl)
  | r3 => exact inv_irqGoes (inv_irqWrite h _ _) (hplain rfl nofun) (hlock .r4 rfl)
  | r4 =>
    simp only [stepIsrRx]
    split
    · exact inv_irqGoes h (hplain rfl nofun) (hlock (.r11 _) rfl)
    · exact inv_irqGoes h (hplain rfl nofun) (hlock .r5 rfl)
  | r5 => exact inv_irqGoes (inv_readRxAddress h) (hplain rfl nofun) (hlock .r6 rfl)
  | r6 => exact inv_irqGoes (inv_irqWrite h _ _) (hplain rfl nofun) (hlock .r7 rfl)
  | r7 => exact inv_readRxLength h hs
  | r8 => exact inv_readRxByte h hs
  | r9 => exact inv_irqReleases (s := s) h (hplain rfl nofun) (by rw [hs]; rfl) rfl
  | r10 => exact inv_irqGoes h (hplain rfl nofun) (hlock .c1 rfl)
  | r11 reason => exact inv_raiseAnomaly h (by rw [hs]; rfl) reason
  | c1 => exact inv_checkFrame h (by rw [hs]; rfl)
  | c2 => exact inv_irqMoves (inv_readRssi h) (hlock .c3 rfl) (fun _ => h.parsed (by rw [hs]; rfl)) nofun nofun
  | c3 => exact inv_irqMoves (inv_readSnr h) (hlock .c4 rfl) (fun _ => h.parsed (by rw [hs]; rfl)) nofun nofun
  | c4 =>
    refine inv_irqMoves h (hlock (.c5 _) rfl) (fun _ => h.parsed (by rw [hs]; rfl)) (fun r hr => ?_) nofun
    injection hr with hr
    injection hr with hr
    exact hr ▸ rssiOf_range s.ictx.rssiRaw s.freq
  | c5 r => exact inv_irqGoes (inv_storePacket h hs) (hplain rfl nofun) (hlock (.c6 .v1) rfl)
  | c6 v =>
    exact inv_stepRearm (at_ := fun v => .isrRx (.c6 v)) ⟨fun _ => hplain rfl nofun, fun _ => rfl⟩ h hs

theorem inv_stepIsrTx (h : Inv s) {k : TxStep} (hs : s.iupc = .isrTx k) : Inv (stepIsrTx k s) := by
  have hplain : ∀ j : TxStep, PlainIrqStep (.isrTx j) := fun j => ⟨rfl, nofun⟩
  have hlock : ∀ j, irqHolds (.isrTx j) = irqHolds (.isrTx k) → irqHolds (.isrTx j) = irqHolds s.iupc := fun _ hj =>
    hs ▸ hj
  cases k with
  | t1 => exact inv_irqAcquire h (hplain .t2) rfl
  | t2 => exact inv_irqGoes (inv_readFlags h) (hplain .t3) (hlock .t3 rfl)
  | t3 => exact inv_irqGoes (inv_irqWrite h _ _) (hplain .t4) (hlock .t4 rfl)
  | t4 =>
    simp only [stepIsrTx]
    split
    · exact inv_irqGoes h (hplain _) (hlock (.t8 _) rfl)
    · exact inv_irqGoes h (hplain .t5) (hlock .t5 rfl)
  | t5 =>
    have harmed : Inv { s with armed := .none } := { h with }
    exact inv_irqGoes harmed (hplain .t6) (hlock .t6 rfl)
  | t6 => exact inv_irqReleases (s := s) h (hplain .t7) (by rw [hs]; rfl) rfl
  | t7 => exact inv_irqGoes h (hplain .d1) (hlock .d1 rfl)
  | t8 reason => exact inv_raiseAnomaly h (by rw [hs]; rfl) reason
  | d1 =>
    have hdone : Inv { s with txDone := true } := { h with }
    exact inv_irqGoes hdone (hplain (.d2 .v1)) (hlock (.d2 .v1) rfl)
  | d2 v => exact inv_stepRearm (at_ := fun v => .isrTx (.d2 v)) ⟨fun _ => hplain _, fun _ => rfl⟩ h hs

/-- Every step of ICTX keeps the invariant. -/
theorem inv_irqStep (h : Inv s) : Inv (irqStep s) := by
  cases hs : s.iupc <;> simp only [irqStep, hs]
  case idle => exact h
  case isrRx => exact inv_stepIsrRx h hs
  case isrTx => exact inv_stepIsrTx h hs

/-! ### The other moves -/

theorem inv_edgeRule (h : Inv s) : Inv (edgeRule s) := by
  obtain ⟨-, heq⟩ | ⟨-, heq⟩ | ⟨-, heq⟩ := edgeRule_cases s <;> rw [heq]
  · exact { h with }
  · exact { h with }
  · exact h

/-- An event of the reference target that keeps its memory canonical. -/
theorem inv_targetEvent {t : State} (h : Inv s)
    (ht : t = s ∨ ∃ m, (s.env.tmem.wf = true → m.wf = true) ∧
      (t = { s with env := { s.env with tmem := m } } ∨ t = edgeRule { s with env := { s.env with tmem := m } })) :
    Inv t := by
  obtain rfl | ⟨m, hm, ht⟩ := ht
  · exact h
  · have hmem : Inv { s with env := { s.env with tmem := m } } := { h with memory := hm h.memory }
    obtain rfl | rfl := ht
    · exact hmem
    · exact inv_edgeRule hmem

theorem inv_dispatch (h : Inv s) (txFirst : Bool) : Inv (Machine.dispatchRule txFirst s) := by
  have hrx : Inv { s with pendRx := false } := { h with }
  have htx : Inv { s with pendTx := false } := { h with }
  obtain heq | ⟨hidle, -, heq⟩ | ⟨hidle, -, heq⟩ := dispatchRule_cases txFirst s <;> rw [heq]
  · exact h
  · exact inv_irqGoes hrx ⟨rfl, nofun⟩ (by rw [hidle]; rfl)
  · exact inv_irqGoes htx ⟨rfl, nofun⟩ (by rw [hidle]; rfl)

/-- A tick of the poll loop, taken below POLL_MAX, goes back to the loop's test. -/
theorem inv_polled (h : Inv s) {src dst : Byte} {n : Nat} {k : SendStep} (hs : s.hupc = .sendPacket src dst n k)
    (hh : hostHolds s.hupc = false) (hlt : s.pcnt.toNat < s.cfg.pollMax.toNat) :
    Inv { s with pcnt := s.pcnt + 1, hupc := .sendPacket src dst n .s15 } := by
  have hgo : Inv { s with hupc := .sendPacket src dst n .s15 } :=
    inv_sendGoes h hs (by rw [← hs, hh]; rfl) rfl nofun
  have hmax := s.cfg.pollMax.isLt
  have hadd : (s.pcnt + 1).toNat = s.pcnt.toNat + 1 := by
    rw [BitVec.toNat_add]
    exact Nat.mod_eq_of_lt (by simp; omega)
  have hle : (s.pcnt + 1).toNat ≤ s.cfg.pollMax.toNat := by omega
  exact { hgo with poll := hle, await := nofun }

theorem inv_pollTick (h : Inv s) : Inv (pollTick s) := by
  obtain heq | ⟨src, dst, n, hs, hagain, heq⟩ | ⟨src, dst, n, hs, heq⟩ := pollTick_cases s <;> rw [heq]
  · exact h
  · exact inv_polled h hs (by rw [hs]; rfl) (pcnt_lt_of_pollAgain hagain)
  · exact inv_polled h hs (by rw [hs]; rfl) (h.await _ _ _ hs)

/-- Every move of an agent keeps the invariant. -/
theorem inv_turn (h : Inv s) (m : Turn) : Inv (turn m s) := by
  cases m with
  | submit message => exact h
  | host =>
    simp only [turn]
    split
    · exact h
    · exact inv_hostStep h
  | irq => exact inv_irqStep h
  | dispatch txFirst => exact inv_dispatch h txFirst
  | edge => exact inv_edgeRule h
  | tick =>
    simp only [turn]
    split
    · exact h
    · exact inv_pollTick h
  | txComplete => exact inv_targetEvent h (txCompleteEvent_cases s)
  | rxPacket bytes crc r q => exact inv_targetEvent h (rxPacketEvent_cases bytes crc r q s)

end

/-! ### Commands -/

/-- Running the moves laid down keeps the invariant. -/
theorem inv_runScript (l : List Turn) {s : State} (h : Inv s) : Inv (runScript l s) := by
  induction l generalizing s with
  | nil => exact inv_setScript h []
  | cons m l ih =>
    by_cases hidle : s.hupc = .idle
    · rw [runScript_idle hidle]
      exact inv_setScript h _
    · rw [runScript_cons hidle]
      exact ih (inv_turn h m)

section
variable {s t : State}

/-- A command whose acceptance keeps the invariant keeps it to its end. -/
theorem inv_runCommand {refusal : Option Status} {accept : State → State} (h : Inv s)
    (haccept : s.hupc = .idle → refusal = none → Inv (accept s)) (ht : runCommand refusal accept s = .next t) :
    Inv t := by
  obtain ⟨hidle, ⟨v, -, rfl⟩ | ⟨hnone, rfl⟩⟩ := runCommand_cases ht
  · exact inv_respond h hidle v []
  · exact inv_runScript _ (haccept hidle hnone)

theorem drv_of_needsDriver (h : needsDriver s = none) : s.drv = .ready := by
  cases hd : s.drv with
  | ready => rfl
  | absent => simp [needsDriver, hd] at h

theorem pins_of_needsPins (h : needsPins s = none) : s.pinsReady = true := by
  cases hp : s.pinsReady with
  | true => rfl
  | false => simp [needsPins, hp] at h

theorem frame_of_needsFrame {n : Nat} (h : needsFrame n s = none) : s.drv = .ready ∧ n ≤ 251 := by
  cases hd : needsDriver s with
  | some v => simp [needsFrame, hd] at h
  | none =>
    simp only [needsFrame, hd] at h
    split at h
    · exact ⟨drv_of_needsDriver hd, ‹_›⟩
    · cases h

/-- A command is accepted at its first step, which neither holds the lock nor is inside a WRITE (R77). -/
theorem inv_acceptAt {first : HUpc} (h : Inv s) (hidle : s.hupc = .idle) (hh : hostHolds first = false)
    (hi : initRunning first = true → s.pinsReady = true) (hd : driverCommand first = true → s.drv = .ready)
    (hs : initHeaderSet first = false) (hc : writeOpened first = false)
    (hf : ∀ src dst n k, first = .sendPacket src dst n k → n ≤ 251 ∧ k ≠ .s15Await) : Inv (acceptAt first s) :=
  have hawake : s.mode ≠ .sleep := mode_ne_sleep h (by rw [hidle]; rfl)
  have hclosed : ¬ writeOpened first = true := by simp [hc]
  have hfree : hostHolds s.hupc = hostHolds first := by rw [hidle, hh]; rfl
  { h with
    hostLock := hfree ▸ h.hostLock
    initPins := hi
    driver := hd
    initHeader := fun hset => by simp [acceptAt, hs] at hset
    await := fun src dst n hk => absurd rfl (hf src dst n _ hk).2
    sleeping := fun hm => absurd hm hawake
    frame := fun src dst n k hk => (hf src dst n k hk).1
    writeLoop := fun hw => absurd (writeOpened_of_writing hw) hclosed
    writeCapacity := fun hw => absurd hw hclosed }

/-- A driver command other than SEND_PACKET is accepted in a constructed driver. -/
theorem inv_acceptDriver {first : HUpc} (h : Inv s) (hfirst : PlainStep first) (hidle : s.hupc = .idle)
    (hnone : needsDriver s = none) : Inv (acceptAt first s) :=
  inv_acceptAt h hidle hfirst.holds (fun hi => by simp [hfirst.init] at hi) (fun _ => drv_of_needsDriver hnone)
    hfirst.header hfirst.closed fun src dst n k hk => absurd hk (hfirst.frame src dst n k)

/-- The operand bytes go to TXB, which keeps its 255 bytes. -/
theorem loadBuffer_length {old data : List Byte} (h : old.length = 255) : (loadBuffer old data).length = 255 := by
  simp only [loadBuffer, List.length_take, List.length_append, List.length_drop, h]
  omega

theorem inv_acceptBytes {first : HUpc} (h : Inv (acceptAt first s)) (data : List Byte) :
    Inv (acceptBytes data first s) :=
  { h with buffers := ⟨loadBuffer_length h.buffers.1, h.buffers.2.1, h.buffers.2.2⟩ }

/-- Every instruction keeps the invariant: a transfer that stands alone, a refused command, or an accepted one. -/
theorem inv_exec {i : Instr} (h : Inv s) (ht : exec i s = .next t) : Inv t := by
  cases i
  case spiRd a => cases ht; exact inv_hostRead h a
  case spiWr a v => cases ht; exact inv_hostWrite h a v
  case resetPins =>
    refine inv_runCommand (refusal := none) h (fun hidle _ => ?_) ht
    exact inv_acceptAt h hidle rfl nofun nofun rfl rfl nofun
  case init p =>
    refine inv_runCommand h (fun hidle hp => ?_) ht
    exact inv_acceptAt h hidle rfl (fun _ => pins_of_needsPins hp) nofun rfl rfl nofun
  case write data =>
    refine inv_runCommand h (fun hidle hd => ?_) ht
    exact inv_acceptBytes
      (inv_acceptDriver (first := .write data.length .w1) h ⟨rfl, rfl, rfl, rfl, rfl, rfl, nofun⟩ hidle hd) data
  case sendPacket src dst payload =>
    refine inv_runCommand h (fun hidle hp => ?_) ht
    obtain ⟨hdrv, hn⟩ := frame_of_needsFrame hp
    have haccept : Inv (acceptAt (.sendPacket src dst payload.length .s1) s) :=
      inv_acceptAt h hidle rfl nofun (fun _ => hdrv) rfl rfl fun _ _ _ _ hk => by cases hk; exact ⟨hn, nofun⟩
    exact inv_acceptBytes haccept payload
  all_goals
    refine inv_runCommand h (fun hidle hd => ?_) ht
    exact inv_acceptDriver h ⟨rfl, rfl, rfl, rfl, rfl, rfl, nofun⟩ hidle hd

/-- Taking up the next move changes nothing the invariant speaks of. -/
theorem inv_afterTurn (h : Inv s) : Inv (afterTurn s) := by
  unfold afterTurn
  split
  · exact { h with }
  · exact { h with }

theorem afterTurn_hupc (s : State) : (afterTurn s).hupc = s.hupc := by
  unfold afterTurn
  split <;> rfl

/-- A submission at a free port is executed or refused. -/
theorem inv_submitMessage {message : List Byte} (h : Inv s) (hidle : s.hupc = .idle)
    (ht : submitMessage message s = .next t) : Inv t := by
  unfold submitMessage at ht
  split at ht
  · exact inv_exec h ht
  · cases ht
    exact inv_respond h hidle _ _

end

/-- Settles O55: a laid frame, a submission at a free port, or a move. -/
theorem everyStepKeepsInv : Obligations.EveryStepKeepsInv := by
  intro s t h hstep
  obtain ⟨-, ⟨frame, i, -, -, ht⟩ | ⟨message, -, -, hidle, ht⟩ | ⟨-, rfl⟩⟩ := step_cases hstep
  · have hlaid : Inv { s with spiFrame := none } := { h with }
    exact inv_exec hlaid ht
  · exact inv_submitMessage (inv_afterTurn h) ((afterTurn_hupc s).trans hidle) ht
  · exact inv_turn (inv_afterTurn h) _

end Sys2Proof.Proofs
end

section
/-!
Who writes what (10_state.md R48, 41_mode_control.md R160): what each move writes of the registers of the summary table, and
whether it makes a transfer.
-/
namespace Sys2Proof.Proofs
open Sys2Proof.Machine

/-- The block without the step pointers, the working registers, the buffers and the bus: the registers of R48, CS apart. -/
def registers (s : State) : State :=
  { s with
    hupc := .idle, iupc := .idle, hctx := HCtx.reset, ictx := ICtx.reset, txb := [], rxbuf := []
    cs := .undriven, env := Env.reset, out := [] }

/-- What a step of HCTX at `u` can write of the registers. -/
inductive HostWrites (a : State) : HUpc → State → Prop
  | nothing (u : HUpc) : HostWrites a u a
  | rstLow : HostWrites a (.resetPins .s2) { a with rst := .low }
  | rstHigh : HostWrites a (.resetPins .s4) { a with rst := .high }
  | pinsReady : HostWrites a (.resetPins .s6) { a with pinsReady := true }
  | initEntry (p : RadioParameters) :
    HostWrites a (.init p .i0)
      { a with armed := .none, pendRx := false, pendTx := false, hdr := .unknown, drv := .absent }
  | initFreq (p : RadioParameters) : HostWrites a (.init p .i3) { a with freq := p.frequency }
  | initHeader (p : RadioParameters) : HostWrites a (.init p .i12) { a with hdr := wantedHeader p.implicitHeader }
  | initDone (p : RadioParameters) : HostWrites a (.init p .i25) { a with mode := .standby, drv := .ready }
  | mode {u : HUpc} {m : Mode} (b : Byte) (h : hostModeStep a.cfg u = some (m, b)) : HostWrites a u { a with mode := m }
  | armEndPacket (x : Armed) : HostWrites a (.endPacket .e1) { a with armed := x }
  | receiveHeader (size : Byte) : HostWrites a (.receive size .v1) { a with hdr := wantedHeader (size != 0) }
  | armReceive (size : Byte) (x : Armed) : HostWrites a (.receive size .v4) { a with armed := x }
  | onReceive (e : Bool) : HostWrites a (.onReceive e) { a with rxcb := e }
  | onTransmit (e : Bool) : HostWrites a (.onTransmit e) { a with txcb := e }
  | freq (f : Hz) : HostWrites a (.setFrequency f .f1) { a with freq := f }
  | header (e : Bool) : HostWrites a (.implicitHeader e .h1) { a with hdr := wantedHeader e }
  | seq (src dst : Byte) (n : Nat) : HostWrites a (.sendPacket src dst n .s1) { a with seq := a.seq + 1 }
  | txDone (src dst : Byte) (n : Nat) : HostWrites a (.sendPacket src dst n .s2) { a with txDone := false }
  | acquire (src dst : Byte) (n : Nat) : HostWrites a (.sendPacket src dst n .s3) { a with lock := .heldByHost }
  | armSend (src dst : Byte) (n : Nat) (x : Armed) : HostWrites a (.sendPacket src dst n .s10) { a with armed := x }
  | release (src dst : Byte) (n : Nat) : HostWrites a (.sendPacket src dst n .s13) { a with lock := .free }
  | pcnt (src dst : Byte) (n : Nat) : HostWrites a (.sendPacket src dst n .s14) { a with pcnt := 0 }
  | attach :
    HostWrites a .attach
      { a with rxcb := true, txcb := true, seq := 0, txDone := false, slot := { a.slot with valid := false } }
  | readPacket : HostWrites a .readPacket { a with slot := { a.slot with valid := false } }

/-- What a step of ICTX at `u` can write of the registers. -/
inductive IrqWrites (a : State) : IUpc → State → Prop
  | nothing (u : IUpc) : IrqWrites a u a
  | acquire {u : IUpc} (h : u = .isrRx .r1 ∨ u = .isrTx .t1) : IrqWrites a u { a with lock := .heldByIrq }
  | release {u : IUpc}
    (h : u = .isrRx .r9 ∨ (∃ v, u = .isrRx (.r11 v)) ∨ u = .isrTx .t6 ∨ ∃ v, u = .isrTx (.t8 v)) :
    IrqWrites a u { a with lock := .free }
  | slot (r : Int) (x : Slot) : IrqWrites a (.isrRx (.c5 r)) { a with slot := x }
  | disarm : IrqWrites a (.isrTx .t5) { a with armed := .none }
  | txDone : IrqWrites a (.isrTx .d1) { a with txDone := true }
  | header {u : IUpc} (h : u = .isrRx (.c6 .v1) ∨ u = .isrTx (.d2 .v1)) : IrqWrites a u { a with hdr := .explicit }
  | arm {u : IUpc} (h : u = .isrRx (.c6 .v4) ∨ u = .isrTx (.d2 .v4)) (x : Armed) : IrqWrites a u { a with armed := x }
  | mode {u : IUpc} {m : Mode} (b : Byte) (h : irqModeStep a.cfg u = some (m, b)) : IrqWrites a u { a with mode := m }

/-- What a step does at the SPI port: nothing, or one transfer, after which CS is high (R143), or where it `selects` CS is
driven high without a transfer (R140). -/
inductive BusStep (selects : Prop) (s t : State) : Prop
  | quiet (hcs : t.cs = s.cs) (hcount : transferCount t.out = transferCount s.out)
  | transfer (hcs : t.cs = .high) (hcount : transferCount t.out = transferCount s.out + 1)
  | select (h : selects) (hcs : t.cs = .high) (hcount : transferCount t.out = transferCount s.out)

/-! ### The steps of HCTX -/

/-- What one step of HCTX at `u` does, said once for the registers and the bus. -/
structure HostEffect (u : HUpc) (s t : State) : Prop where
  writes : HostWrites (registers s) u (registers t)
  bus : BusStep (u = .resetPins .s1) s t

theorem effect_stepResetPins (k : ResetStep) (s : State) : HostEffect (.resetPins k) s (stepResetPins k s) := by
  cases k with
  | s1 => exact ⟨.nothing _, .select rfl rfl rfl⟩
  | s2 => exact ⟨.rstLow, .quiet rfl rfl⟩
  | s3 | s5 => exact ⟨.nothing _, .quiet rfl rfl⟩
  | s4 => exact ⟨.rstHigh, .quiet rfl rfl⟩
  | s6 => exact ⟨.pinsReady, .quiet rfl rfl⟩

theorem effect_stepInit (p : RadioParameters) (k : InitStep) (s : State) : HostEffect (.init p k) s (stepInit p k s) := by
  cases k with
  | i0 => exact ⟨.initEntry p, .quiet rfl rfl⟩
  | i1 =>
    simp only [stepInit, initVersion]
    split <;> exact ⟨.nothing _, .transfer rfl rfl⟩
  | i2 => exact ⟨.mode _ rfl, .transfer rfl rfl⟩
  | i3 => exact ⟨.initFreq p, .transfer rfl rfl⟩
  | i12 => exact ⟨.initHeader p, .transfer rfl rfl⟩
  | i25 => exact ⟨.initDone p, .transfer rfl rfl⟩
  | i4 | i5 | i6 | i7 | i8 | i9 | i10 | i11 | i13 | i14 | i15 | i16 | i17 | i18 | i19 | i20 | i21 | i22 | i23 | i24 =>
    exact ⟨.nothing _, .transfer rfl rfl⟩

theorem effect_stepReceive (size : Byte) (k : ReceiveStep) (s : State) :
    HostEffect (.receive size k) s (stepReceive size k s) := by
  cases k with
  | v1 =>
    simp only [stepReceive]
    split
    · exact ⟨.nothing _, .quiet rfl rfl⟩
    · exact ⟨.receiveHeader size, .transfer rfl rfl⟩
  | v2 | v3 | v5 => exact ⟨.nothing _, .transfer rfl rfl⟩
  | v4 => exact ⟨.armReceive size _, .quiet rfl rfl⟩
  | v6 => exact ⟨.mode _ rfl, .transfer rfl rfl⟩

theorem effect_stepSendPacket (src dst : Byte) (n : Nat) (k : SendStep) (s : State) :
    HostEffect (.sendPacket src dst n k) s (stepSendPacket src dst n k s) := by
  cases k with
  | s1 => exact ⟨.seq src dst n, .quiet rfl rfl⟩
  | s2 => exact ⟨.txDone src dst n, .quiet rfl rfl⟩
  | s3 =>
    obtain ⟨-, heq⟩ | ⟨-, heq⟩ := sendAcquire_cases (.sendPacket src dst n .s4) s <;> simp only [stepSendPacket, heq]
    · exact ⟨.acquire src dst n, .quiet rfl rfl⟩
    · exact ⟨.nothing _, .quiet rfl rfl⟩
  | s4 => exact ⟨.mode _ rfl, .transfer rfl rfl⟩
  | s8 w => cases w <;> exact ⟨.nothing _, .transfer rfl rfl⟩
  | s9 w => cases w <;> exact ⟨.nothing _, .transfer rfl rfl⟩
  | s5 | s6 | s11 => exact ⟨.nothing _, .transfer rfl rfl⟩
  | s7 => exact ⟨.nothing _, .quiet rfl rfl⟩
  | s10 => exact ⟨.armSend src dst n _, .quiet rfl rfl⟩
  | s12 => exact ⟨.mode _ rfl, .transfer rfl rfl⟩
  | s13 => exact ⟨.release src dst n, .quiet rfl rfl⟩
  | s14 => exact ⟨.pcnt src dst n, .quiet rfl rfl⟩
  | s15 =>
    simp only [stepSendPacket, sendPoll]
    split <;> exact ⟨.nothing _, .quiet rfl rfl⟩
  | s15Await => exact ⟨.nothing _, .quiet rfl rfl⟩
  | s16 =>
    simp only [stepSendPacket, sendFinish]
    split <;> exact ⟨.nothing _, .quiet rfl rfl⟩

theorem effect_stepImplicitHeader (e : Bool) (k : HeaderStep) (s : State) :
    HostEffect (.implicitHeader e k) s (stepImplicitHeader e k s) := by
  cases k with
  | h1 =>
    simp only [stepImplicitHeader]
    split
    · exact ⟨.nothing _, .quiet rfl rfl⟩
    · exact ⟨.header e, .transfer rfl rfl⟩
  | h2 => exact ⟨.nothing _, .transfer rfl rfl⟩

/-- What a step of HCTX does, step by step of the sequences. -/
theorem effect_hostStep (s : State) : HostEffect s.hupc s (hostStep s) := by
  cases hs : s.hupc <;> simp only [hostStep, hs]
  case idle => exact ⟨.nothing _, .quiet rfl rfl⟩
  case resetPins k => exact effect_stepResetPins k s
  case init p k => exact effect_stepInit p k s
  case receive size k => exact effect_stepReceive size k s
  case implicitHeader e k => exact effect_stepImplicitHeader e k s
  case sendPacket src dst n k => exact effect_stepSendPacket src dst n k s
  case beginPacket k =>
    cases k with
    | b1 => exact ⟨.mode _ rfl, .transfer rfl rfl⟩
    | b2 | b3 => exact ⟨.nothing _, .transfer rfl rfl⟩
  case endPacket k =>
    cases k with
    | e1 => exact ⟨.armEndPacket _, .quiet rfl rfl⟩
    | e2 => exact ⟨.nothing _, .transfer rfl rfl⟩
    | e3 => exact ⟨.mode _ rfl, .transfer rfl rfl⟩
  case setFrequency f k =>
    cases k with
    | f1 => exact ⟨.freq f, .transfer rfl rfl⟩
    | f2 | f3 => exact ⟨.nothing _, .transfer rfl rfl⟩
  case write n k => cases k <;> exact ⟨.nothing _, .transfer rfl rfl⟩
  case setPreamble len k => cases k <;> exact ⟨.nothing _, .transfer rfl rfl⟩
  case setBandwidth w k => cases k <;> exact ⟨.nothing _, .transfer rfl rfl⟩
  case setSf b k => cases k <;> exact ⟨.nothing _, .transfer rfl rfl⟩
  case setCr b k => cases k <;> exact ⟨.nothing _, .transfer rfl rfl⟩
  case enableCrc e k => cases k <;> exact ⟨.nothing _, .transfer rfl rfl⟩
  case setSync | setTxPower | packetRssi | packetSnr => exact ⟨.nothing _, .transfer rfl rfl⟩
  case onReceive e => exact ⟨.onReceive e, .quiet rfl rfl⟩
  case onTransmit e => exact ⟨.onTransmit e, .quiet rfl rfl⟩
  case attach => exact ⟨.attach, .quiet rfl rfl⟩
  case isPacketAvailable => exact ⟨.nothing _, .quiet rfl rfl⟩
  case readPacket => exact ⟨.readPacket, .quiet rfl rfl⟩

/-! ### The steps of ICTX -/

/-- What one step of ICTX at `u` does, said once for the registers and the bus. -/
structure IrqEffect (u : IUpc) (s t : State) : Prop where
  writes : IrqWrites (registers s) u (registers t)
  bus : BusStep False s t

theorem effect_irqAcquire {u : IUpc} (hu : u = .isrRx .r1 ∨ u = .isrTx .t1) (next : IUpc) (s : State) :
    IrqEffect u s (irqAcquire next s) := by
  obtain ⟨-, heq⟩ | ⟨-, heq⟩ := irqAcquire_cases next s <;> rw [heq]
  · exact ⟨.acquire hu, .quiet rfl rfl⟩
  · exact ⟨.nothing _, .quiet rfl rfl⟩

theorem effect_stepRearm {at_ : RearmStep → IUpc} (h1 : at_ .v1 = .isrRx (.c6 .v1) ∨ at_ .v1 = .isrTx (.d2 .v1))
    (h4 : at_ .v4 = .isrRx (.c6 .v4) ∨ at_ .v4 = .isrTx (.d2 .v4))
    (h6 : ∀ c, irqModeStep c (at_ .v6) = some (.rxContinuous, modeByte c c.opmodeRxCont)) (k : RearmStep) (s : State) :
    IrqEffect (at_ k) s (stepRearm at_ k s) := by
  cases k with
  | v1 =>
    simp only [stepRearm]
    split
    · exact ⟨.nothing _, .quiet rfl rfl⟩
    · exact ⟨.header h1, .transfer rfl rfl⟩
  | v2 | v5 => exact ⟨.nothing _, .transfer rfl rfl⟩
  | v4 => exact ⟨.arm h4 _, .quiet rfl rfl⟩
  | v6 => exact ⟨.mode _ (h6 _), .transfer rfl rfl⟩

theorem effect_stepIsrRx (k : RxStep) (s : State) : IrqEffect (.isrRx k) s (stepIsrRx k s) := by
  cases k with
  | r1 => exact effect_irqAcquire (.inl rfl) _ s
  | r4 =>
    simp only [stepIsrRx]
    split <;> exact ⟨.nothing _, .quiet rfl rfl⟩
  | r2 | r3 | r5 | r6 | r7 | r8 | c2 | c3 => exact ⟨.nothing _, .transfer rfl rfl⟩
  | r9 => exact ⟨.release (.inl rfl), .quiet rfl rfl⟩
  | r11 reason => exact ⟨.release (.inr (.inl ⟨reason, rfl⟩)), .quiet rfl rfl⟩
  | r10 | c4 => exact ⟨.nothing _, .quiet rfl rfl⟩
  | c1 =>
    simp only [stepIsrRx, checkFrame]
    split <;> exact ⟨.nothing _, .quiet rfl rfl⟩
  | c5 r => exact ⟨.slot r _, .quiet rfl rfl⟩
  | c6 v => exact effect_stepRearm (at_ := fun v => .isrRx (.c6 v)) (.inl rfl) (.inl rfl) (fun _ => rfl) v s

theorem effect_stepIsrTx (k : TxStep) (s : State) : IrqEffect (.isrTx k) s (stepIsrTx k s) := by
  cases k with
  | t1 => exact effect_irqAcquire (.inr rfl) _ s
  | t2 | t3 => exact ⟨.nothing _, .transfer rfl rfl⟩
  | t4 =>
    simp only [stepIsrTx]
    split <;> exact ⟨.nothing _, .quiet rfl rfl⟩
  | t5 => exact ⟨.disarm, .quiet rfl rfl⟩
  | t6 => exact ⟨.release (.inr (.inr (.inl rfl))), .quiet rfl rfl⟩
  | t7 => exact ⟨.nothing _, .quiet rfl rfl⟩
  | t8 reason => exact ⟨.release (.inr (.inr (.inr ⟨reason, rfl⟩))), .quiet rfl rfl⟩
  | d1 => exact ⟨.txDone, .quiet rfl rfl⟩
  | d2 v => exact effect_stepRearm (at_ := fun v => .isrTx (.d2 v)) (.inr rfl) (.inr rfl) (fun _ => rfl) v s

/-- What a step of ICTX does, step by step of the services. -/
theorem effect_irqStep (s : State) : IrqEffect s.iupc s (irqStep s) := by
  cases hs : s.iupc with
  | idle => simp only [irqStep, hs]; exact ⟨.nothing _, .quiet rfl rfl⟩
  | isrRx k => simp only [irqStep, hs]; exact effect_stepIsrRx k s
  | isrTx k => simp only [irqStep, hs]; exact effect_stepIsrTx k s

/-! ### Every move -/

/-- The moves that may latch an edge (R244, R84, R85). -/
def isEdgeMove (move : Turn) : Prop :=
  move = .edge ∨ move = .txComplete ∨ ∃ bytes crc r q, move = .rxPacket bytes crc r q

/-- What a move writes of the registers: `a` before, `b` after. -/
inductive MoveWrites (move : Turn) (s t : State) (a : State) : State → Prop
  | nothing : MoveWrites move s t a a
  | host {b : State} (hm : move = .host) (h : HostWrites a s.hupc b) : MoveWrites move s t a b
  | irq {b : State} (hm : move = .irq) (h : IrqWrites a s.iupc b) : MoveWrites move s t a b
  | tick (hm : move = .tick)
    (h : ∃ src dst n, s.hupc = .sendPacket src dst n .s15 ∨ s.hupc = .sendPacket src dst n .s15Await) :
    MoveWrites move s t a { a with pcnt := a.pcnt + 1 }
  | latchRx (hm : isEdgeMove move) (h : s.armed = .rxDone) : MoveWrites move s t a { a with pendRx := true }
  | latchTx (hm : isEdgeMove move) (h : s.armed = .txDone) : MoveWrites move s t a { a with pendTx := true }
  | takeRx (txFirst : Bool) (hm : move = .dispatch txFirst) (h : t.iupc = .isrRx .r1) :
    MoveWrites move s t a { a with pendRx := false }
  | takeTx (txFirst : Bool) (hm : move = .dispatch txFirst) (h : t.iupc = .isrTx .t1) :
    MoveWrites move s t a { a with pendTx := false }

/-- An edge writes a latch, or nothing. -/
theorem writes_edgeRule {move : Turn} (hm : isEdgeMove move) {s u : State} (hu : registers u = registers s) :
    MoveWrites move s (edgeRule u) (registers s) (registers (edgeRule u)) := by
  have harmed : s.armed = u.armed := (congrArg State.armed hu :).symm
  rw [← hu]
  obtain ⟨h, heq⟩ | ⟨h, heq⟩ | ⟨-, heq⟩ := edgeRule_cases u <;> rw [heq]
  · exact .latchRx hm (harmed.trans h)
  · exact .latchTx hm (harmed.trans h)
  · exact .nothing

/-- An event of the reference target writes a latch, or nothing. -/
theorem writes_targetEvent {move : Turn} (hm : isEdgeMove move) {s t : State}
    (ht : t = s ∨ ∃ m, (s.env.tmem.wf = true → m.wf = true) ∧
      (t = { s with env := { s.env with tmem := m } } ∨ t = edgeRule { s with env := { s.env with tmem := m } })) :
    MoveWrites move s t (registers s) (registers t) := by
  obtain rfl | ⟨m, -, rfl | rfl⟩ := ht
  · exact .nothing
  · exact .nothing
  · exact writes_edgeRule hm rfl

theorem writes_dispatch (txFirst : Bool) (s : State) :
    MoveWrites (.dispatch txFirst) s (Machine.dispatchRule txFirst s) (registers s)
      (registers (Machine.dispatchRule txFirst s)) := by
  obtain heq | ⟨-, -, heq⟩ | ⟨-, -, heq⟩ := dispatchRule_cases txFirst s <;> rw [heq]
  · exact .nothing
  · exact .takeRx txFirst rfl rfl
  · exact .takeTx txFirst rfl rfl

theorem writes_pollTick (s : State) : MoveWrites .tick s (pollTick s) (registers s) (registers (pollTick s)) := by
  obtain heq | ⟨src, dst, n, hs, -, heq⟩ | ⟨src, dst, n, hs, heq⟩ := pollTick_cases s <;> rw [heq]
  · exact .nothing
  · exact .tick rfl ⟨src, dst, n, .inl hs⟩
  · exact .tick rfl ⟨src, dst, n, .inr hs⟩

/-- What a move writes of the registers. -/
theorem writes_turn (move : Turn) (s : State) :
    MoveWrites move s (turn move s) (registers s) (registers (turn move s)) := by
  cases move with
  | submit message => exact .nothing
  | host =>
    simp only [turn]
    split
    · exact .nothing
    · exact .host rfl (effect_hostStep s).writes
  | irq => exact .irq rfl (effect_irqStep s).writes
  | dispatch txFirst => exact writes_dispatch txFirst s
  | edge => exact writes_edgeRule (.inl rfl) rfl
  | tick =>
    simp only [turn]
    split
    · exact .nothing
    · exact writes_pollTick s
  | txComplete => exact writes_targetEvent (.inr (.inl rfl)) (txCompleteEvent_cases s)
  | rxPacket bytes crc r q =>
    exact writes_targetEvent (.inr (.inr ⟨bytes, crc, r, q, rfl⟩)) (rxPacketEvent_cases bytes crc r q s)

/-! ### The writers of each register in HCTX -/

section
variable {a b : State} {u : HUpc}

theorem cfg_host (h : HostWrites a u b) : b.cfg = a.cfg ∧ b.spiFrame = a.spiFrame := by
  cases h <;> exact ⟨rfl, rfl⟩

theorem seq_host (h : HostWrites a u b) (hne : b.seq ≠ a.seq) :
    u = .attach ∨ ∃ src dst n, u = .sendPacket src dst n .s1 := by
  cases h with
  | attach => exact .inl rfl
  | seq src dst n => exact .inr ⟨src, dst, n, rfl⟩
  | _ => exact absurd rfl hne

theorem freq_host (h : HostWrites a u b) (hne : b.freq ≠ a.freq) :
    (∃ f, u = .setFrequency f .f1) ∨ ∃ p, u = .init p .i3 := by
  cases h with
  | freq f => exact .inl ⟨f, rfl⟩
  | initFreq p => exact .inr ⟨p, rfl⟩
  | _ => exact absurd rfl hne

theorem rxcb_host (h : HostWrites a u b) (hne : b.rxcb ≠ a.rxcb) : u = .attach ∨ ∃ e, u = .onReceive e := by
  cases h with
  | attach => exact .inl rfl
  | onReceive e => exact .inr ⟨e, rfl⟩
  | _ => exact absurd rfl hne

theorem txcb_host (h : HostWrites a u b) (hne : b.txcb ≠ a.txcb) : u = .attach ∨ ∃ e, u = .onTransmit e := by
  cases h with
  | attach => exact .inl rfl
  | onTransmit e => exact .inr ⟨e, rfl⟩
  | _ => exact absurd rfl hne

theorem drv_host (h : HostWrites a u b) (hne : b.drv ≠ a.drv) : ∃ p, u = .init p .i0 ∨ u = .init p .i25 := by
  cases h with
  | initEntry p => exact ⟨p, .inl rfl⟩
  | initDone p => exact ⟨p, .inr rfl⟩
  | _ => exact absurd rfl hne

theorem pinsReady_host (h : HostWrites a u b) (hne : b.pinsReady ≠ a.pinsReady) : u = .resetPins .s6 := by
  cases h with
  | pinsReady => rfl
  | _ => exact absurd rfl hne

theorem rst_host (h : HostWrites a u b) (hne : b.rst ≠ a.rst) : u = .resetPins .s2 ∨ u = .resetPins .s4 := by
  cases h with
  | rstLow => exact .inl rfl
  | rstHigh => exact .inr rfl
  | _ => exact absurd rfl hne

theorem txDone_host (h : HostWrites a u b) (hne : b.txDone ≠ a.txDone) :
    u = .attach ∨ ∃ src dst n, u = .sendPacket src dst n .s2 := by
  cases h with
  | attach => exact .inl rfl
  | txDone src dst n => exact .inr ⟨src, dst, n, rfl⟩
  | _ => exact absurd rfl hne

theorem pcnt_host (h : HostWrites a u b) (hne : b.pcnt ≠ a.pcnt) : ∃ src dst n, u = .sendPacket src dst n .s14 := by
  cases h with
  | pcnt src dst n => exact ⟨src, dst, n, rfl⟩
  | _ => exact absurd rfl hne

theorem slot_host (h : HostWrites a u b) (hne : b.slot ≠ a.slot) : u = .attach ∨ u = .readPacket := by
  cases h with
  | attach => exact .inl rfl
  | readPacket => exact .inr rfl
  | _ => exact absurd rfl hne

theorem lock_host (h : HostWrites a u b) (hne : b.lock ≠ a.lock) :
    ∃ src dst n, u = .sendPacket src dst n .s3 ∨ u = .sendPacket src dst n .s13 := by
  cases h with
  | acquire src dst n => exact ⟨src, dst, n, .inl rfl⟩
  | release src dst n => exact ⟨src, dst, n, .inr rfl⟩
  | _ => exact absurd rfl hne

theorem armed_host (h : HostWrites a u b) (hne : b.armed ≠ a.armed) :
    (∃ p, u = .init p .i0) ∨ u = .endPacket .e1 ∨ (∃ src dst n, u = .sendPacket src dst n .s10) ∨
      ∃ size, u = .receive size .v4 := by
  cases h with
  | initEntry p => exact .inl ⟨p, rfl⟩
  | armEndPacket => exact .inr (.inl rfl)
  | armSend src dst n => exact .inr (.inr (.inl ⟨src, dst, n, rfl⟩))
  | armReceive size => exact .inr (.inr (.inr ⟨size, rfl⟩))
  | _ => exact absurd rfl hne

theorem hdr_host (h : HostWrites a u b) (hne : b.hdr ≠ a.hdr) :
    (∃ p, u = .init p .i0 ∨ u = .init p .i12) ∨ (∃ size, u = .receive size .v1) ∨ ∃ e, u = .implicitHeader e .h1 := by
  cases h with
  | initEntry p => exact .inl ⟨p, .inl rfl⟩
  | initHeader p => exact .inl ⟨p, .inr rfl⟩
  | receiveHeader size => exact .inr (.inl ⟨size, rfl⟩)
  | header e => exact .inr (.inr ⟨e, rfl⟩)
  | _ => exact absurd rfl hne

theorem mode_host (h : HostWrites a u b) (hne : b.mode ≠ a.mode) : ∃ v, hostModeStep a.cfg u = some (b.mode, v) := by
  cases h with
  | mode v h => exact ⟨v, h⟩
  | initDone p => exact ⟨_, rfl⟩
  | _ => exact absurd rfl hne

theorem pendRx_host (h : HostWrites a u b) (hne : b.pendRx ≠ a.pendRx) : b.pendRx = false ∧ ∃ p, u = .init p .i0 := by
  cases h with
  | initEntry p => exact ⟨rfl, p, rfl⟩
  | _ => exact absurd rfl hne

theorem pendTx_host (h : HostWrites a u b) (hne : b.pendTx ≠ a.pendTx) : b.pendTx = false ∧ ∃ p, u = .init p .i0 := by
  cases h with
  | initEntry p => exact ⟨rfl, p, rfl⟩
  | _ => exact absurd rfl hne

end

/-! ### The writers of each register in ICTX -/

section
variable {a b : State} {u : IUpc}

/-- ICTX leaves the poll count and the latches alone. -/
theorem kept_irq (h : IrqWrites a u b) : b.pcnt = a.pcnt ∧ b.pendRx = a.pendRx ∧ b.pendTx = a.pendTx := by
  cases h <;> exact ⟨rfl, rfl, rfl⟩

theorem cfg_irq (h : IrqWrites a u b) : b.cfg = a.cfg ∧ b.spiFrame = a.spiFrame := by
  cases h <;> exact ⟨rfl, rfl⟩

theorem txDone_irq (h : IrqWrites a u b) (hne : b.txDone ≠ a.txDone) : u = .isrTx .d1 := by
  cases h with
  | txDone => rfl
  | _ => exact absurd rfl hne

theorem slot_irq (h : IrqWrites a u b) (hne : b.slot ≠ a.slot) : ∃ r, u = .isrRx (.c5 r) := by
  cases h with
  | slot r => exact ⟨r, rfl⟩
  | _ => exact absurd rfl hne

theorem lock_irq (h : IrqWrites a u b) (hne : b.lock ≠ a.lock) :
    u = .isrRx .r1 ∨ u = .isrRx .r9 ∨ (∃ v, u = .isrRx (.r11 v)) ∨ u = .isrTx .t1 ∨ u = .isrTx .t6 ∨
      ∃ v, u = .isrTx (.t8 v) := by
  cases h with
  | acquire h =>
    obtain h | h := h
    · exact .inl h
    · exact .inr (.inr (.inr (.inl h)))
  | release h =>
    obtain h | h | h | h := h
    · exact .inr (.inl h)
    · exact .inr (.inr (.inl h))
    · exact .inr (.inr (.inr (.inr (.inl h))))
    · exact .inr (.inr (.inr (.inr (.inr h))))
  | _ => exact absurd rfl hne

theorem armed_irq (h : IrqWrites a u b) (hne : b.armed ≠ a.armed) :
    u = .isrTx .t5 ∨ u = .isrRx (.c6 .v4) ∨ u = .isrTx (.d2 .v4) := by
  cases h with
  | disarm => exact .inl rfl
  | arm h => exact .inr h
  | _ => exact absurd rfl hne

theorem hdr_irq (h : IrqWrites a u b) (hne : b.hdr ≠ a.hdr) : u = .isrRx (.c6 .v1) ∨ u = .isrTx (.d2 .v1) := by
  cases h with
  | header h => exact h
  | _ => exact absurd rfl hne

theorem mode_irq (h : IrqWrites a u b) (hne : b.mode ≠ a.mode) : ∃ v, irqModeStep a.cfg u = some (b.mode, v) := by
  cases h with
  | mode v h => exact ⟨v, h⟩
  | _ => exact absurd rfl hne

end

/-! ### The writers of each register -/

section
variable {move : Turn} {s t a b : State}

/-- A register that ticks and latches leave alone changes only in a step of a context. -/
theorem context_of_changed {α : Type} (f : State → α) (hw : MoveWrites move s t a b) (hne : f b ≠ f a)
    (hother : ∀ x y v, f { a with pendRx := x, pendTx := y, pcnt := v } = f a) :
    (move = .host ∧ HostWrites a s.hupc b) ∨ (move = .irq ∧ IrqWrites a s.iupc b) := by
  cases hw with
  | host hm h => exact .inl ⟨hm, h⟩
  | irq hm h => exact .inr ⟨hm, h⟩
  | nothing => exact absurd rfl hne
  | tick => exact absurd (hother a.pendRx a.pendTx (a.pcnt + 1)) hne
  | latchRx => exact absurd (hother true a.pendTx a.pcnt) hne
  | latchTx => exact absurd (hother a.pendRx true a.pcnt) hne
  | takeRx => exact absurd (hother false a.pendTx a.pcnt) hne
  | takeTx => exact absurd (hother a.pendRx false a.pcnt) hne

/-- One that ICTX leaves alone too changes only in a step of HCTX. -/
theorem host_of_changed {α : Type} (f : State → α) (hw : MoveWrites move s t a b) (hne : f b ≠ f a)
    (hother : ∀ x y v, f { a with pendRx := x, pendTx := y, pcnt := v } = f a)
    (hirq : ∀ u x, IrqWrites a u x → f x = f a) : move = .host ∧ HostWrites a s.hupc b :=
  (context_of_changed f hw hne hother).resolve_right fun h => hne (hirq _ _ h.2)

theorem pcnt_changed (hw : MoveWrites move s t a b) (hne : b.pcnt ≠ a.pcnt) :
    (move = .host ∧ ∃ src dst n, s.hupc = .sendPacket src dst n .s14) ∨
      (move = .tick ∧ ∃ src dst n, s.hupc = .sendPacket src dst n .s15 ∨ s.hupc = .sendPacket src dst n .s15Await) := by
  cases hw with
  | host hm h => exact .inl ⟨hm, pcnt_host h hne⟩
  | irq hm h => exact absurd (kept_irq h).1 hne
  | tick hm h => exact .inr ⟨hm, h⟩
  | _ => exact absurd rfl hne

theorem pendRx_changed (hw : MoveWrites move s t a b) (hne : b.pendRx ≠ a.pendRx) :
    (b.pendRx = true ∧ s.armed = .rxDone ∧ isEdgeMove move) ∨
      (b.pendRx = false ∧ ∃ txFirst, move = .dispatch txFirst ∧ t.iupc = .isrRx .r1) ∨
      (b.pendRx = false ∧ move = .host ∧ ∃ p, s.hupc = .init p .i0) := by
  cases hw with
  | host hm h => exact .inr (.inr ⟨(pendRx_host h hne).1, hm, (pendRx_host h hne).2⟩)
  | irq hm h => exact absurd (kept_irq h).2.1 hne
  | latchRx hm h => exact .inl ⟨rfl, h, hm⟩
  | takeRx txFirst hm h => exact .inr (.inl ⟨rfl, txFirst, hm, h⟩)
  | _ => exact absurd rfl hne

theorem pendTx_changed (hw : MoveWrites move s t a b) (hne : b.pendTx ≠ a.pendTx) :
    (b.pendTx = true ∧ s.armed = .txDone ∧ isEdgeMove move) ∨
      (b.pendTx = false ∧ ∃ txFirst, move = .dispatch txFirst ∧ t.iupc = .isrTx .t1) ∨
      (b.pendTx = false ∧ move = .host ∧ ∃ p, s.hupc = .init p .i0) := by
  cases hw with
  | host hm h => exact .inr (.inr ⟨(pendTx_host h hne).1, hm, (pendTx_host h hne).2⟩)
  | irq hm h => exact absurd (kept_irq h).2.2 hne
  | latchTx hm h => exact .inl ⟨rfl, h, hm⟩
  | takeTx txFirst hm h => exact .inr (.inl ⟨rfl, txFirst, hm, h⟩)
  | _ => exact absurd rfl hne

/-- No move writes the configuration or lays a frame. -/
theorem cfg_kept (hw : MoveWrites move s t a b) : b.cfg = a.cfg ∧ b.spiFrame = a.spiFrame := by
  cases hw with
  | host hm h => exact cfg_host h
  | irq hm h => exact cfg_irq h
  | _ => exact ⟨rfl, rfl⟩

theorem edgeRule_cs (s : State) : (edgeRule s).cs = s.cs := by
  obtain ⟨-, heq⟩ | ⟨-, heq⟩ | ⟨-, heq⟩ := edgeRule_cases s <;> rw [heq]

theorem targetEvent_cs
    (ht : t = s ∨ ∃ m, (s.env.tmem.wf = true → m.wf = true) ∧
      (t = { s with env := { s.env with tmem := m } } ∨ t = edgeRule { s with env := { s.env with tmem := m } })) :
    t.cs = s.cs := by
  obtain rfl | ⟨m, -, rfl | rfl⟩ := ht
  · rfl
  · rfl
  · exact edgeRule_cs _

/-- Only a step of a context drives CS. -/
theorem turn_cs (h1 : move ≠ .host) (h2 : move ≠ .irq) : (turn move s).cs = s.cs := by
  cases move with
  | submit message => rfl
  | host => contradiction
  | irq => contradiction
  | dispatch txFirst =>
    obtain heq | ⟨-, -, heq⟩ | ⟨-, -, heq⟩ := dispatchRule_cases txFirst s <;> rw [turn, heq]
  | edge => exact edgeRule_cs s
  | tick =>
    simp only [turn]
    split
    · rfl
    · obtain heq | ⟨_, _, _, -, -, heq⟩ | ⟨_, _, _, -, heq⟩ := pollTick_cases s <;> rw [heq]
  | txComplete => exact targetEvent_cs (txCompleteEvent_cases s)
  | rxPacket bytes crc r q => exact targetEvent_cs (rxPacketEvent_cases bytes crc r q s)

theorem cs_changed (hne : (turn move s).cs ≠ s.cs) :
    (turn move s).cs = .high ∧
      ((move = .host ∧ s.hupc = .resetPins .s1) ∨
        ((move = .host ∨ move = .irq) ∧ transferCount (turn move s).out = transferCount s.out + 1)) := by
  by_cases hhost : move = .host
  · subst hhost
    cases hb : hostBlocked s with
    | true => exact absurd (by simp [turn, hb]) hne
    | false =>
      rw [turn_host hb] at hne ⊢
      cases (effect_hostStep s).bus with
      | quiet hcs => exact absurd hcs hne
      | transfer hcs hcount => exact ⟨hcs, .inr ⟨.inl rfl, hcount⟩⟩
      | select h hcs => exact ⟨hcs, .inl ⟨rfl, h⟩⟩
  · by_cases hirq : move = .irq
    · subst hirq
      cases (effect_irqStep s).bus with
      | quiet hcs => exact absurd hcs hne
      | transfer hcs hcount => exact ⟨hcs, .inr ⟨.inr rfl, hcount⟩⟩
      | select h => exact absurd h not_false
    · exact absurd (turn_cs hhost hirq) hne

end

theorem mode_changed {move : Turn} {s : State} (hne : (turn move s).mode ≠ s.mode) :
    (move = .host ∧ ∃ b, hostModeStep s.cfg s.hupc = some ((turn move s).mode, b)) ∨
      (move = .irq ∧ ∃ b, irqModeStep s.cfg s.iupc = some ((turn move s).mode, b)) := by
  obtain ⟨hm, h⟩ | ⟨hm, h⟩ := context_of_changed State.mode (writes_turn move s) hne fun _ _ _ => rfl
  · have hmode := mode_host h hne
    exact .inl ⟨hm, hmode⟩
  · have hmode := mode_irq h hne
    exact .inr ⟨hm, hmode⟩

/-- Settles O59: the registers are read off what a move writes of them. -/
theorem writersOfState : Obligations.WritersOfState := by
  rintro move s _ rfl
  have hw := writes_turn move s
  have hpcnt := pcnt_changed hw
  have hpendRx := pendRx_changed hw
  have hpendTx := pendTx_changed hw
  refine ⟨(cfg_kept hw).1, (cfg_kept hw).2, fun hne => ?seq, fun hne => ?freq, fun hne => ?rxcb, fun hne => ?txcb,
    fun hne => ?drv, fun hne => ?pinsReady, fun hne => ?rst, fun hne => ?txDone, hpcnt, fun hne => ?slot,
    fun hne => ?lock, fun hne => ?armed, fun hne => ?hdr, mode_changed, hpendRx, hpendTx, cs_changed⟩
  case seq =>
    obtain ⟨hm, h⟩ := host_of_changed State.seq hw hne (fun _ _ _ => rfl) fun _ _ h => by cases h <;> rfl
    exact ⟨hm, seq_host h hne⟩
  case freq =>
    obtain ⟨hm, h⟩ := host_of_changed State.freq hw hne (fun _ _ _ => rfl) fun _ _ h => by cases h <;> rfl
    exact ⟨hm, freq_host h hne⟩
  case rxcb =>
    obtain ⟨hm, h⟩ := host_of_changed State.rxcb hw hne (fun _ _ _ => rfl) fun _ _ h => by cases h <;> rfl
    exact ⟨hm, rxcb_host h hne⟩
  case txcb =>
    obtain ⟨hm, h⟩ := host_of_changed State.txcb hw hne (fun _ _ _ => rfl) fun _ _ h => by cases h <;> rfl
    exact ⟨hm, txcb_host h hne⟩
  case drv =>
    obtain ⟨hm, h⟩ := host_of_changed State.drv hw hne (fun _ _ _ => rfl) fun _ _ h => by cases h <;> rfl
    exact ⟨hm, drv_host h hne⟩
  case pinsReady =>
    obtain ⟨hm, h⟩ := host_of_changed State.pinsReady hw hne (fun _ _ _ => rfl) fun _ _ h => by cases h <;> rfl
    exact ⟨hm, pinsReady_host h hne⟩
  case rst =>
    obtain ⟨hm, h⟩ := host_of_changed State.rst hw hne (fun _ _ _ => rfl) fun _ _ h => by cases h <;> rfl
    exact ⟨hm, rst_host h hne⟩
  case txDone =>
    exact (context_of_changed State.txDone hw hne fun _ _ _ => rfl).imp
      (fun ⟨hm, h⟩ => ⟨hm, txDone_host h hne⟩) fun ⟨hm, h⟩ => ⟨hm, txDone_irq h hne⟩
  case slot =>
    exact (context_of_changed State.slot hw hne fun _ _ _ => rfl).imp
      (fun ⟨hm, h⟩ => ⟨hm, slot_host h hne⟩) fun ⟨hm, h⟩ => ⟨hm, slot_irq h hne⟩
  case lock =>
    exact (context_of_changed State.lock hw hne fun _ _ _ => rfl).imp
      (fun ⟨hm, h⟩ => ⟨hm, lock_host h hne⟩) fun ⟨hm, h⟩ => ⟨hm, lock_irq h hne⟩
  case armed =>
    exact (context_of_changed State.armed hw hne fun _ _ _ => rfl).imp
      (fun ⟨hm, h⟩ => ⟨hm, armed_host h hne⟩) fun ⟨hm, h⟩ => ⟨hm, armed_irq h hne⟩
  case hdr =>
    exact (context_of_changed State.hdr hw hne fun _ _ _ => rfl).imp
      (fun ⟨hm, h⟩ => ⟨hm, hdr_host h hne⟩) fun ⟨hm, h⟩ => ⟨hm, hdr_irq h hne⟩

/-! ### MODE -/

/-- The step of HCTX that sets MODE makes the write of its mode byte; INIT, END_PACKET and RECEIVE then answer (R160). -/
theorem hostStep_mode {s : State} {m : Mode} {b : Byte} (h : hostModeStep s.cfg s.hupc = some (m, b)) :
    (hostStep s).mode = m ∧
      (PutOut s (hostStep s) [hWr s.cfg.regs.opMode b] ∨
        PutOut s (hostStep s) [hWr s.cfg.regs.opMode b, .response [s.cfg.statuses.ok]]) := by
  unfold hostModeStep at h
  split at h <;> cases h
  case h_1 p hs => rw [hostStep, hs]; exact ⟨rfl, .inl ⟨[_], rfl, rfl⟩⟩
  case h_2 p hs => rw [hostStep, hs]; exact ⟨rfl, .inr ⟨[_, _], rfl, rfl⟩⟩
  case h_3 hs => rw [hostStep, hs]; exact ⟨rfl, .inl ⟨[_], rfl, rfl⟩⟩
  case h_4 src dst n hs => rw [hostStep, hs]; exact ⟨rfl, .inl ⟨[_], rfl, rfl⟩⟩
  case h_5 hs => rw [hostStep, hs]; exact ⟨rfl, .inr ⟨[_, _], rfl, rfl⟩⟩
  case h_6 src dst n hs => rw [hostStep, hs]; exact ⟨rfl, .inl ⟨[_], rfl, rfl⟩⟩
  case h_7 size hs => rw [hostStep, hs]; exact ⟨rfl, .inr ⟨[_, _], rfl, rfl⟩⟩

/-- The step of ICTX that sets MODE makes the write of its mode byte (R160). -/
theorem irqStep_mode {s : State} {m : Mode} {b : Byte} (h : irqModeStep s.cfg s.iupc = some (m, b)) :
    (irqStep s).mode = m ∧ PutOut s (irqStep s) [iWr s.cfg.regs.opMode b] := by
  unfold irqModeStep at h
  split at h <;> cases h
  case h_1 hs => rw [irqStep, hs]; exact ⟨rfl, [_], rfl, rfl⟩
  case h_2 hs => rw [irqStep, hs]; exact ⟨rfl, [_], rfl, rfl⟩

/-- Settles O58: each step of the table sets MODE with its write; that no other one does is the row of MODE in R48. -/
theorem modeChangesWithItsWrite : Obligations.ModeChangesWithItsWrite := by
  intro s
  refine ⟨fun m b h hb => ?_, fun m b h => irqStep_mode h, fun hnone => ?_, fun hnone => ?_, fun move hhost hirq => ?_⟩
  · rw [turn_host hb]
    exact hostStep_mode h
  · by_contra hne
    obtain ⟨-, b, h⟩ | ⟨hm, -⟩ := mode_changed hne
    · simp [hnone] at h
    · cases hm
  · by_contra hne
    obtain ⟨hm, -⟩ | ⟨-, b, h⟩ := mode_changed hne
    · cases hm
    · simp [hnone] at h
  · by_contra hne
    obtain ⟨hm, -⟩ | ⟨hm, -⟩ := mode_changed hne
    · exact hhost hm
    · exact hirq hm

end Sys2Proof.Proofs
end

section
/-!
How long a service can last (70_reset_and_hazards.md R318): bounds on the steps and the transfers that are left, which every
step of ICTX that need not wait brings down.
-/
namespace Sys2Proof.Proofs
open Sys2Proof.Machine

/-! ### What is left of a service -/

/-- The steps a re-arm has left, and the transfers among them. -/
def rearmLeft : RearmStep → Nat × Nat
  | .v1 => (5, 4)
  | .v2 => (4, 3)
  | .v4 => (3, 2)
  | .v5 => (2, 2)
  | .v6 => (1, 1)

/-- The most steps a service has left, and the most transfers, with `k` bytes of the FIFO left to read in r8. -/
def serviceLeft (k : Nat) : IUpc → Nat × Nat
  | .idle => (0, 0)
  | .isrRx .r1 => (274, 266)
  | .isrRx .r2 => (273, 266)
  | .isrRx .r3 => (272, 265)
  | .isrRx .r4 => (271, 264)
  | .isrRx .r5 => (270, 264)
  | .isrRx .r6 => (269, 263)
  | .isrRx .r7 => (268, 262)
  | .isrRx .r8 => (12 + k, 6 + k)
  | .isrRx .r9 => (12, 6)
  | .isrRx .r10 => (11, 6)
  | .isrRx (.r11 _) => (1, 0)
  | .isrRx .c1 => (10, 6)
  | .isrRx .c2 => (9, 6)
  | .isrRx .c3 => (8, 5)
  | .isrRx .c4 => (7, 4)
  | .isrRx (.c5 _) => (6, 4)
  | .isrRx (.c6 v) => rearmLeft v
  | .isrTx .t1 => (13, 6)
  | .isrTx .t2 => (12, 6)
  | .isrTx .t3 => (11, 5)
  | .isrTx .t4 => (10, 4)
  | .isrTx .t5 => (9, 4)
  | .isrTx .t6 => (8, 4)
  | .isrTx .t7 => (7, 4)
  | .isrTx (.t8 _) => (1, 0)
  | .isrTx .d1 => (6, 4)
  | .isrTx (.d2 v) => rearmLeft v

theorem serviceLeft_idle (k : Nat) : serviceLeft k .idle = (0, 0) := rfl

/-- What the service of a state has left; the index ICNT runs up to N. -/
def leftIn (s : State) : Nat × Nat := serviceLeft (s.ictx.n.toNat - s.ictx.icnt.toNat) s.iupc

theorem serviceLeft_le {k : Nat} (hk : k ≤ 255) (u : IUpc) :
    (serviceLeft k u).1 ≤ 274 ∧ (serviceLeft k u).2 ≤ 266 := by
  cases u with
  | idle => exact ⟨Nat.zero_le _, Nat.zero_le _⟩
  | isrRx j =>
    cases j with
    | c6 v => cases v <;> simp [serviceLeft, rearmLeft]
    | _ => simp only [serviceLeft]; omega
  | isrTx j =>
    cases j with
    | d2 v => cases v <;> simp [serviceLeft, rearmLeft]
    | _ => simp only [serviceLeft]; omega

theorem leftIn_le (s : State) : (leftIn s).1 ≤ 274 ∧ (leftIn s).2 ≤ 266 :=
  serviceLeft_le (by have := s.ictx.n.isLt; omega) s.iupc

/-- Only an idle ICTX has no step left. -/
theorem idle_of_leftIn {s : State} (hread : s.iupc = .isrRx .r8 → s.ictx.icnt.toNat < s.ictx.n.toNat)
    (h : (leftIn s).1 = 0) : s.iupc = .idle := by
  unfold leftIn at h
  cases hs : s.iupc with
  | idle => rfl
  | isrRx j =>
    rw [hs] at h hread
    cases j with
    | c6 v => cases v <;> simp [serviceLeft, rearmLeft] at h
    | _ => simp [serviceLeft] at h
  | isrTx j =>
    rw [hs] at h
    cases j with
    | d2 v => cases v <;> simp [serviceLeft, rearmLeft] at h
    | _ => simp [serviceLeft] at h

/-! ### Every step of ICTX that need not wait brings it down -/

/-- From `s` to `t` a step is spent, and a transfer is spent for each one made. -/
structure Spends (s t : State) : Prop where
  steps : (leftIn t).1 < (leftIn s).1
  transfers : transferCount t.out + (leftIn t).2 ≤ transferCount s.out + (leftIn s).2

/-- A step from the stand `u` to the stand `v` with `d` transfers, neither of them in the loop r8. -/
theorem spends_of_stands {s t : State} {u v : IUpc} (d : Nat) (hs : s.iupc = u) (ht : t.iupc = v)
    (hcount : transferCount t.out = transferCount s.out + d)
    (h : ∀ j k, (serviceLeft k v).1 < (serviceLeft j u).1 ∧ d + (serviceLeft k v).2 ≤ (serviceLeft j u).2) : Spends s t := by
  obtain ⟨hsteps, htransfers⟩ := h (s.ictx.n.toNat - s.ictx.icnt.toNat) (t.ictx.n.toNat - t.ictx.icnt.toNat)
  constructor
  · rwa [leftIn, leftIn, hs, ht]
  · rw [leftIn, leftIn, hs, ht, hcount]
    omega

theorem spends_acquire {s : State} {u v : IUpc} (hs : s.iupc = u) (hfree : s.lock = .free)
    (h : ∀ j k, (serviceLeft k v).1 < (serviceLeft j u).1 ∧ (serviceLeft k v).2 ≤ (serviceLeft j u).2) :
    Spends s (irqAcquire v s) := by
  rw [irqAcquire, if_pos hfree]
  exact spends_of_stands (v := v) 0 hs rfl rfl fun j k => by have := h j k; omega

/-- The steps of the re-arm, in either service. -/
theorem spends_stepRearm {s : State} {at_ : RearmStep → IUpc} (hat : ∀ k v, serviceLeft k (at_ v) = rearmLeft v)
    {v : RearmStep} (hs : s.iupc = at_ v) : Spends s (stepRearm at_ v s) := by
  cases v with
  | v1 =>
    rw [stepRearm]
    split
    · exact spends_of_stands (v := at_ .v4) 0 hs rfl rfl fun j k => by simp [hat, rearmLeft]
    · exact spends_of_stands (v := at_ .v2) 1 hs rfl rfl fun j k => by simp [hat, rearmLeft]
  | v2 => exact spends_of_stands (v := at_ .v4) 1 hs rfl rfl fun j k => by simp [hat, rearmLeft]
  | v4 =>
    cases hr : s.rxcb with
    | false => exact spends_of_stands (v := at_ .v6) 0 hs (by simp [stepRearm, hr]) rfl fun j k => by simp [hat, rearmLeft]
    | true => exact spends_of_stands (v := at_ .v5) 0 hs (by simp [stepRearm, hr]) rfl fun j k => by simp [hat, rearmLeft]
  | v5 => exact spends_of_stands (v := at_ .v6) 1 hs rfl rfl fun j k => by simp [hat, rearmLeft]
  | v6 => exact spends_of_stands (v := .idle) 1 hs rfl rfl fun j k => by simp [hat, rearmLeft, serviceLeft_idle]

/-- At the loop's test ICTX has the bytes that are left, the release of the lock and the callback before it. -/
theorem leftIn_rxNext {s : State} (h : s.iupc = .isrRx (rxNext s)) :
    leftIn s = (12 + (s.ictx.n.toNat - s.ictx.icnt.toNat), 6 + (s.ictx.n.toNat - s.ictx.icnt.toNat)) := by
  rw [leftIn, h, rxNext]
  split
  · rfl
  · next hdone => rw [Nat.sub_eq_zero_of_le (Nat.le_of_not_lt hdone)]; rfl

/-- r7 sets N, and at most N bytes are left to read. -/
theorem spends_readRxLength {s : State} (hs : s.iupc = .isrRx .r7) : Spends s (stepIsrRx .r7 s) := by
  have hn : (stepIsrRx .r7 s).ictx.n.toNat < 256 := (stepIsrRx .r7 s).ictx.n.isLt
  have hleft : leftIn s = (268, 262) := by rw [leftIn, hs]; rfl
  have hafter := leftIn_rxNext (s := stepIsrRx .r7 s) rfl
  have hcount : transferCount (stepIsrRx .r7 s).out = transferCount s.out + 1 := rfl
  constructor <;> rw [hleft, hafter]
  · omega
  · rw [hcount]; omega

/-- An iteration of r8 reads one of the bytes that are left. -/
theorem spends_readRxByte {s : State} (hs : s.iupc = .isrRx .r8) (hread : s.ictx.icnt.toNat < s.ictx.n.toNat) :
    Spends s (stepIsrRx .r8 s) := by
  have hn : s.ictx.n.toNat < 256 := s.ictx.n.isLt
  have hnext : (stepIsrRx .r8 s).ictx.icnt.toNat = s.ictx.icnt.toNat + 1 := by
    change (s.ictx.icnt + 1).toNat = _
    bv_omega
  have hkept : (stepIsrRx .r8 s).ictx.n = s.ictx.n := rfl
  have hleft : leftIn s = (12 + (s.ictx.n.toNat - s.ictx.icnt.toNat), 6 + (s.ictx.n.toNat - s.ictx.icnt.toNat)) := by
    rw [leftIn, hs]; rfl
  have hafter := leftIn_rxNext (s := stepIsrRx .r8 s) rfl
  have hcount : transferCount (stepIsrRx .r8 s).out = transferCount s.out + 1 := rfl
  constructor <;> rw [hleft, hafter, hnext, hkept]
  · omega
  · rw [hcount]; omega

theorem spends_stepIsrRx {s : State} (hread : s.iupc = .isrRx .r8 → s.ictx.icnt.toNat < s.ictx.n.toNat) {k : RxStep}
    (hs : s.iupc = .isrRx k) (hwait : k = .r1 → s.lock = .free) : Spends s (stepIsrRx k s) := by
  cases k with
  | r1 => exact spends_acquire hs (hwait rfl) fun _ _ => by simp [serviceLeft]
  | r4 =>
    rw [stepIsrRx]
    split
    · exact spends_of_stands 0 hs rfl rfl fun _ _ => by simp [serviceLeft]
    · exact spends_of_stands 0 hs rfl rfl fun _ _ => by simp [serviceLeft]
  | r7 => exact spends_readRxLength hs
  | r8 => exact spends_readRxByte hs (hread hs)
  | c1 =>
    rw [stepIsrRx, checkFrame]
    split
    · exact spends_of_stands (v := .isrRx (.c6 .v1)) 0 hs rfl rfl fun _ _ => by simp [serviceLeft, rearmLeft]
    · exact spends_of_stands 0 hs rfl rfl fun _ _ => by simp [serviceLeft]
  | c6 v => exact spends_stepRearm (at_ := fun v => .isrRx (.c6 v)) (fun _ _ => rfl) hs
  | r2 | r3 | r5 | r6 | c2 | c3 => exact spends_of_stands 1 hs rfl rfl fun _ _ => by simp [serviceLeft, stepIsrRx]
  | r9 | r10 | c4 => exact spends_of_stands 0 hs rfl rfl fun _ _ => by simp [serviceLeft, stepIsrRx]
  | c5 => exact spends_of_stands (v := .isrRx (.c6 .v1)) 0 hs rfl rfl fun _ _ => by simp [serviceLeft, rearmLeft]
  | r11 => exact spends_of_stands (v := .idle) 0 hs rfl rfl fun _ _ => by simp [serviceLeft]

theorem spends_stepIsrTx {s : State} {k : TxStep} (hs : s.iupc = .isrTx k) (hwait : k = .t1 → s.lock = .free) :
    Spends s (stepIsrTx k s) := by
  cases k with
  | t1 => exact spends_acquire hs (hwait rfl) fun _ _ => by simp [serviceLeft]
  | t4 =>
    rw [stepIsrTx]
    split
    · exact spends_of_stands 0 hs rfl rfl fun _ _ => by simp [serviceLeft]
    · exact spends_of_stands 0 hs rfl rfl fun _ _ => by simp [serviceLeft]
  | d2 v => exact spends_stepRearm (at_ := fun v => .isrTx (.d2 v)) (fun _ _ => rfl) hs
  | t2 | t3 => exact spends_of_stands 1 hs rfl rfl fun _ _ => by simp [serviceLeft, stepIsrTx]
  | t5 | t6 | t7 => exact spends_of_stands 0 hs rfl rfl fun _ _ => by simp [serviceLeft, stepIsrTx]
  | t8 => exact spends_of_stands (v := .idle) 0 hs rfl rfl fun _ _ => by simp [serviceLeft]
  | d1 => exact spends_of_stands (v := .isrTx (.d2 .v1)) 0 hs rfl rfl fun _ _ => by simp [serviceLeft, rearmLeft]

/-- A service in progress that HCTX does not keep from the lock spends a step. At its `acquire LOCK` the lock is free: ICTX
holds it only later (R319). -/
theorem spends_irqStep {s : State} (h : Inv s) (hbusy : s.iupc ≠ .idle) (hlock : s.lock ≠ .heldByHost) :
    Spends s (irqStep s) := by
  have hfree (hat : irqHolds s.iupc = false) : s.lock = .free := by
    cases hl : s.lock with
    | free => rfl
    | heldByHost => exact absurd hl hlock
    | heldByIrq => rw [h.irqLock.1 hl] at hat; contradiction
  cases hs : s.iupc with
  | idle => exact absurd hs hbusy
  | isrRx k =>
    simp only [irqStep, hs]
    exact spends_stepIsrRx h.readLoop hs fun hk => hfree (by rw [hs, hk]; rfl)
  | isrTx k =>
    simp only [irqStep, hs]
    exact spends_stepIsrTx hs fun hk => hfree (by rw [hs, hk]; rfl)

theorem lock_ne_heldByHost {a b : State} {u : IUpc} (hw : IrqWrites a u b) (ha : a.lock ≠ .heldByHost) :
    b.lock ≠ .heldByHost := by
  cases hw
  case acquire | release => nofun
  all_goals exact ha

/-- No step of ICTX gives the lock to HCTX. -/
theorem irqStep_lock {s : State} (h : s.lock ≠ .heldByHost) : (irqStep s).lock ≠ .heldByHost :=
  lock_ne_heldByHost (a := registers s) (b := registers (irqStep s)) (effect_irqStep s).writes h

/-- Enough steps of ICTX end the service, with the transfers it has left. -/
theorem service_ends (m : Nat) {s : State} (h : Inv s) (hlock : s.lock ≠ .heldByHost) (hm : (leftIn s).1 ≤ m) :
    ∃ k, k ≤ m ∧ (runTurns (List.replicate k .irq) s).iupc = .idle ∧
      transferCount (runTurns (List.replicate k .irq) s).out ≤ transferCount s.out + (leftIn s).2 := by
  induction m generalizing s with
  | zero => exact ⟨0, le_rfl, idle_of_leftIn h.readLoop (Nat.le_zero.1 hm), Nat.le_add_right _ _⟩
  | succ m ih =>
    by_cases hbusy : s.iupc = .idle
    · exact ⟨0, Nat.zero_le _, hbusy, Nat.le_add_right _ _⟩
    · have hspend := spends_irqStep h hbusy hlock
      obtain ⟨k, hk, hidle, hcount⟩ := ih (inv_irqStep h) (irqStep_lock hlock) (by have := hspend.steps; omega)
      exact ⟨k + 1, Nat.succ_le_succ hk, hidle, hcount.trans hspend.transfers⟩

/-- Settles O60: a service has at most 274 steps and 266 transfers left, and each step it makes is one fewer. -/
theorem serviceIsBounded : Obligations.ServiceIsBounded := by
  intro s h _ hlock
  obtain ⟨hsteps, htransfers⟩ := leftIn_le s
  obtain ⟨k, hk, hidle, hcount⟩ := service_ends 274 h hlock hsteps
  exact ⟨k, hk, hidle, by omega⟩

end Sys2Proof.Proofs
end

section
/-!
Fields of the target's registers (20_memory.md R67, R70, 40_transport.md R144): what writing a field does to the memory, that
writes of different fields commute, and that a field written twice is as written once.
-/
namespace Sys2Proof.Proofs
open Sys2Proof.Machine

/-! ### Memories -/

/-- Two canonical memories that read the same at every address are one memory. -/
theorem memory_ext_from {m m' : Memory} {lo : Nat} (h : Memory.wfFrom lo m = true) (h' : Memory.wfFrom lo m' = true)
    (hread : ∀ a, m.read a = m'.read a) : m = m' := by
  induction m generalizing lo m' with
  | nil =>
    cases m' with
    | nil => rfl
    | cons c rest =>
      simp only [Memory.wfFrom, Bool.and_eq_true, bne_iff_ne] at h'
      have hc : c.2 = 0#8 := by simpa [Memory.read] using (hread c.1).symm
      exact absurd hc h'.1.2
  | cons c rest ih =>
    obtain ⟨b, w⟩ := c
    simp only [Memory.wfFrom, Bool.and_eq_true, bne_iff_ne, decide_eq_true_eq] at h
    obtain ⟨⟨hlo, hw⟩, hrest⟩ := h
    cases m' with
    | nil => exact absurd (by simpa [Memory.read] using hread b) hw
    | cons c' rest' =>
      obtain ⟨b', w'⟩ := c'
      simp only [Memory.wfFrom, Bool.and_eq_true, bne_iff_ne, decide_eq_true_eq] at h'
      obtain ⟨⟨hlo', hw'⟩, hrest'⟩ := h'
      have hb := hread b
      have hb' := hread b'
      simp only [Memory.read, if_true] at hb hb'
      obtain hlt | rfl | hlt := Nat.lt_trichotomy b b'
      · rw [if_neg hlt.ne, Memory.read_of_lt hrest' (Nat.lt_succ_of_lt hlt)] at hb
        exact absurd hb hw
      · rw [if_pos rfl] at hb
        subst hb
        have htail : rest = rest' := ih hrest hrest' fun a => by
          by_cases ha : a < b + 1
          · rw [Memory.read_of_lt hrest ha, Memory.read_of_lt hrest' ha]
          · have hne : a ≠ b := by omega
            simpa [Memory.read, hne] using hread a
        rw [htail]
      · rw [if_neg hlt.ne, Memory.read_of_lt hrest (Nat.lt_succ_of_lt hlt)] at hb'
        exact absurd hb'.symm hw'

theorem memory_ext {m m' : Memory} (h : m.wf = true) (h' : m'.wf = true) (hread : ∀ a, m.read a = m'.read a) : m = m' :=
  memory_ext_from h h' hread

/-! ### Merging a field into a byte -/

theorem mergeField_idem (old mask bits : Byte) :
    mergeField (mergeField old mask bits) mask bits = mergeField old mask bits := by
  unfold mergeField
  ext i
  simp only [BitVec.getElem_or, BitVec.getElem_and, BitVec.getElem_not]
  cases old[i] <;> cases mask[i] <;> cases bits[i] <;> rfl

/-- Fields of disjoint masks are merged in either order. -/
theorem mergeField_comm {mask bits mask' bits' : Byte} (old : Byte) (hbits : bits &&& mask = bits)
    (hbits' : bits' &&& mask' = bits') (hmask : mask &&& mask' = 0) :
    mergeField (mergeField old mask bits) mask' bits' = mergeField (mergeField old mask' bits') mask bits := by
  unfold mergeField
  ext i hi
  have h := congrArg (·[i]) hbits
  have h' := congrArg (·[i]) hbits'
  have hm := congrArg (·[i]) hmask
  simp only [BitVec.getElem_or, BitVec.getElem_and, BitVec.getElem_not, BitVec.getElem_zero, BitVec.ofNat_eq_ofNat] at *
  revert h h' hm
  cases old[i] <;> cases mask[i] <;> cases bits[i] <;> cases mask'[i] <;> cases bits'[i] <;> decide

/-- The merged field reads back. -/
theorem mergeField_and_self (old : Byte) {mask bits : Byte} (hbits : bits &&& mask = bits) :
    mergeField old mask bits &&& mask = bits := by
  unfold mergeField
  ext i hi
  have h := congrArg (·[i]) hbits
  simp only [BitVec.getElem_or, BitVec.getElem_and, BitVec.getElem_not] at *
  revert h
  cases old[i] <;> cases mask[i] <;> cases bits[i] <;> decide

/-- Merging a field keeps every field of a disjoint mask. -/
theorem mergeField_and_disjoint (old : Byte) {mask bits mask' : Byte} (hbits : bits &&& mask = bits)
    (hmask : mask &&& mask' = 0) : mergeField old mask bits &&& mask' = old &&& mask' := by
  unfold mergeField
  ext i hi
  have h := congrArg (·[i]) hbits
  have hm := congrArg (·[i]) hmask
  simp only [BitVec.getElem_or, BitVec.getElem_and, BitVec.getElem_not, BitVec.getElem_zero, BitVec.ofNat_eq_ofNat] at *
  revert h hm
  cases old[i] <;> cases mask[i] <;> cases bits[i] <;> cases mask'[i] <;> decide

/-- A whole byte is the field of the mask 0xFF. -/
theorem mergeField_whole (old v : Byte) : mergeField old 0xFF v = v := by
  simp [mergeField]

theorem and_whole (v : Byte) : v &&& 0xFF = v := BitVec.and_allOnes

theorem fieldBits_and_mask (f : BitField) (code : Byte) : fieldBits f code &&& f.mask = fieldBits f code := by
  rw [fieldBits, BitVec.and_assoc, BitVec.and_self]

theorem flagBits_and_mask (mask : Byte) (on : Bool) : flagBits mask on &&& mask = flagBits mask on := by
  cases on <;> simp [flagBits]

/-! ### Writing fields of registers -/

/-- One write of a field: the register, the field's mask, and its bits in place. A whole register is the field of the mask
0xFF. -/
structure FieldWrite where
  reg : RegNum
  mask : Byte
  bits : Byte

namespace FieldWrite

/-- A whole register. -/
def whole (a : RegNum) (v : Byte) : FieldWrite := ⟨a, 0xFF, v⟩

/-- The bits lie in the field. -/
def Fits (x : FieldWrite) : Prop := x.bits &&& x.mask = x.bits

/-- The two fields have no bit of a register in common. -/
def Apart (x y : FieldWrite) : Prop := x.reg ≠ y.reg ∨ x.mask &&& y.mask = 0

/-- The memory once the field is written. -/
def onto (m : Memory) (x : FieldWrite) : Memory :=
  m.write (regAddress x.reg) (mergeField (m.read (regAddress x.reg)) x.mask x.bits)

theorem Apart.symm {x y : FieldWrite} (h : x.Apart y) : y.Apart x :=
  h.imp Ne.symm fun hm => by rwa [BitVec.and_comm]

theorem onto_whole (m : Memory) (a : RegNum) (v : Byte) : onto m (whole a v) = m.write (regAddress a) v :=
  congrArg (m.write (regAddress a)) (mergeField_whole _ v)

theorem onto_wf {m : Memory} (h : m.wf = true) (x : FieldWrite) : (onto m x).wf = true := Memory.wf_write _ _ h

theorem read_onto {m : Memory} (h : m.wf = true) (x : FieldWrite) (a : Nat) :
    (onto m x).read a =
      if a = regAddress x.reg then mergeField (m.read (regAddress x.reg)) x.mask x.bits else m.read a :=
  Memory.read_write h _ _ a

theorem onto_idem {m : Memory} (h : m.wf = true) (x : FieldWrite) : onto (onto m x) x = onto m x := by
  refine memory_ext (onto_wf (onto_wf h x) x) (onto_wf h x) fun a => ?_
  rw [read_onto (onto_wf h x), read_onto h, read_onto h, if_pos rfl, mergeField_idem]
  split <;> rfl

theorem onto_comm {m : Memory} (h : m.wf = true) {x y : FieldWrite} (hx : x.Fits) (hy : y.Fits) (hxy : x.Apart y) :
    onto (onto m x) y = onto (onto m y) x := by
  refine memory_ext (onto_wf (onto_wf h x) y) (onto_wf (onto_wf h y) x) fun a => ?_
  simp only [read_onto (onto_wf h _), read_onto h]
  by_cases hreg : x.reg = y.reg
  · have hmask : x.mask &&& y.mask = 0 := hxy.resolve_left (· hreg)
    rw [hreg, if_pos rfl, mergeField_comm _ hx hy hmask, if_pos rfl]
    split <;> rfl
  · have haddr : regAddress x.reg ≠ regAddress y.reg := fun he => hreg (regAddress_inj.1 he)
    rw [if_neg haddr.symm, if_neg haddr]
    by_cases hax : a = regAddress x.reg
    · rw [if_pos hax, if_pos hax, if_neg (hax ▸ haddr)]
    · rw [if_neg hax, if_neg hax]

end FieldWrite

/-- The memory once a list of fields is written, one after the other. -/
def writeFields (m : Memory) (l : List FieldWrite) : Memory := l.foldl FieldWrite.onto m

theorem writeFields_append (m : Memory) (l l' : List FieldWrite) :
    writeFields m (l ++ l') = writeFields (writeFields m l) l' := List.foldl_append ..

theorem writeFields_wf {m : Memory} (h : m.wf = true) (l : List FieldWrite) : (writeFields m l).wf = true := by
  induction l generalizing m with
  | nil => exact h
  | cons x l ih => exact ih (FieldWrite.onto_wf h x)

/-- A field is written before or after a list of others. -/
theorem writeFields_onto {m : Memory} (h : m.wf = true) {l : List FieldWrite} {y : FieldWrite} (hl : ∀ x ∈ l, x.Fits)
    (hy : y.Fits) (hapart : ∀ x ∈ l, x.Apart y) :
    FieldWrite.onto (writeFields m l) y = writeFields (FieldWrite.onto m y) l := by
  induction l generalizing m with
  | nil => rfl
  | cons x l ih =>
    rw [List.forall_mem_cons] at hl hapart
    have hswap := FieldWrite.onto_comm h hl.1 hy hapart.1
    calc FieldWrite.onto (writeFields (FieldWrite.onto m x) l) y
      _ = writeFields (FieldWrite.onto (FieldWrite.onto m x) y) l := ih (FieldWrite.onto_wf h x) hl.2 hapart.2
      _ = writeFields (FieldWrite.onto m y) (x :: l) := by rw [hswap]; rfl

/-- Two lists of different fields are written in either order. -/
theorem writeFields_comm {m : Memory} (h : m.wf = true) {l l' : List FieldWrite} (hl : ∀ x ∈ l, x.Fits)
    (hl' : ∀ y ∈ l', y.Fits) (hapart : ∀ x ∈ l, ∀ y ∈ l', x.Apart y) :
    writeFields (writeFields m l) l' = writeFields (writeFields m l') l := by
  induction l' generalizing m with
  | nil => rfl
  | cons y l' ih =>
    rw [List.forall_mem_cons] at hl'
    calc writeFields (FieldWrite.onto (writeFields m l) y) l'
      _ = writeFields (writeFields (FieldWrite.onto m y) l) l' := by
        rw [writeFields_onto h hl hl'.1 fun x hx => hapart x hx y List.mem_cons_self]
      _ = writeFields (writeFields m (y :: l')) l :=
        ih (FieldWrite.onto_wf h y) hl'.2 fun x hx z hz => hapart x hx z (List.mem_cons_of_mem y hz)

/-- A list of different fields written twice is as written once. -/
theorem writeFields_idem {m : Memory} (h : m.wf = true) {l : List FieldWrite} (hl : ∀ x ∈ l, x.Fits)
    (hapart : l.Pairwise FieldWrite.Apart) : writeFields (writeFields m l) l = writeFields m l := by
  induction l generalizing m with
  | nil => rfl
  | cons x l ih =>
    rw [List.forall_mem_cons] at hl
    rw [List.pairwise_cons] at hapart
    calc writeFields (FieldWrite.onto (writeFields (FieldWrite.onto m x) l) x) l
      _ = writeFields (writeFields (FieldWrite.onto (FieldWrite.onto m x) x) l) l := by
        rw [writeFields_onto (FieldWrite.onto_wf h x) hl.2 hl.1 fun y hy => (hapart.1 y hy).symm]
      _ = writeFields (FieldWrite.onto m x) l := by
        rw [FieldWrite.onto_idem h, ih (FieldWrite.onto_wf h x) hl.2 hapart.2]

/-- A field reads back unless a later write is not apart from it. -/
theorem read_writeFields {m : Memory} (h : m.wf = true) {x : FieldWrite} (hx : x.Fits) {before after : List FieldWrite}
    (hafter : ∀ y ∈ after, y.Fits ∧ y.Apart x) :
    (writeFields m (before ++ x :: after)).read (regAddress x.reg) &&& x.mask = x.bits := by
  have hkept {m : Memory} (hm : m.wf = true) {l : List FieldWrite} (hl : ∀ y ∈ l, y.Fits ∧ y.Apart x) :
      (writeFields m l).read (regAddress x.reg) &&& x.mask = m.read (regAddress x.reg) &&& x.mask := by
    induction l generalizing m with
    | nil => rfl
    | cons y l ih =>
      rw [List.forall_mem_cons] at hl
      obtain ⟨⟨hfit, hapart⟩, hrest⟩ := hl
      refine (ih (FieldWrite.onto_wf hm y) hrest).trans ?_
      rw [FieldWrite.read_onto hm]
      split
      · next heq =>
        have hreg : x.reg = y.reg := regAddress_inj.1 heq
        rw [mergeField_and_disjoint _ hfit (hapart.resolve_left (· hreg.symm)), hreg]
      · rfl
  rw [writeFields_append]
  have hm := writeFields_wf h before
  refine (hkept (FieldWrite.onto_wf hm x) hafter).trans ?_
  rw [FieldWrite.read_onto hm, if_pos rfl, mergeField_and_self _ hx]

/-! ### The transfers that write fields -/

/-- Transfers keep a canonical memory. -/
theorem accesses_wf {r : RegMap} {rst : Pin} (l : List (RegNum × Option Byte)) {e : Env} (h : e.tmem.wf = true) :
    (accesses r rst l e).tmem.wf = true := by
  induction l generalizing e with
  | nil => exact h
  | cons x l ih =>
    obtain ⟨a, _ | v⟩ := x
    · exact ih (targetAfterRead_wf r rst a h)
    · exact ih (targetAfterWrite_wf r rst a v h)

/-- Transfers keep the target live. -/
theorem accesses_live {r : RegMap} {rst : Pin} (l : List (RegNum × Option Byte)) {e : Env}
    (h : targetLive rst e = true) : targetLive rst (accesses r rst l e) = true := by
  rw [targetLive, (accesses_frame l e).1]
  exact h

/-- A write of a plainly stored register of the live reference target writes it whole (R83). -/
theorem accesses_write {r : RegMap} {rst : Pin} {e : Env} {a : RegNum} (v : Byte) (hl : targetLive rst e = true)
    (hp : plainReg r a = true) : (accesses r rst [(a, some v)] e).tmem = writeFields e.tmem [.whole a v] := by
  simp only [plainReg, Bool.and_eq_true, bne_iff_ne, ne_eq, Bool.not_eq_true'] at hp
  simp [accesses, targetAfterWrite, memAfterWrite, hl, hp, writeFields, FieldWrite.onto_whole]

/-- Writes of plainly stored registers write them whole, one after the other. -/
theorem accesses_writes {r : RegMap} {rst : Pin} (l : List (RegNum × Byte)) {e : Env} (hl : targetLive rst e = true)
    (hp : ∀ x ∈ l, plainReg r x.1 = true) :
    (accesses r rst (l.map fun x => (x.1, some x.2)) e).tmem = writeFields e.tmem (l.map fun x => .whole x.1 x.2) := by
  induction l generalizing e with
  | nil => rfl
  | cons x l ih =>
    rw [List.forall_mem_cons] at hp
    have hfirst := accesses_write (rst := rst) x.2 hl hp.1
    exact (ih (e := accesses r rst [(x.1, some x.2)] e) (accesses_live _ hl) hp.2).trans (by rw [hfirst]; rfl)

/-- A read-modify-write of a plainly stored register of the live reference target writes the field (R144). -/
theorem accesses_rmw {r : RegMap} {rst : Pin} {e : Env} {a : RegNum} (mask bits : Byte) (hl : targetLive rst e = true)
    (hp : plainReg r a = true) :
    (accesses r rst [(a, none), (a, some (mergeField (targetByte r rst e a) mask bits))] e).tmem =
      writeFields e.tmem [⟨a, mask, bits⟩] := by
  simp only [plainReg, Bool.and_eq_true, bne_iff_ne, ne_eq, Bool.not_eq_true'] at hp
  obtain ⟨⟨hfifo, hirq⟩, hro⟩ := hp
  simp [accesses, targetAfterRead, targetAfterWrite, memAfterWrite, targetByte, hl, hfifo, hirq, hro, writeFields,
    FieldWrite.onto, targetReg]

end Sys2Proof.Proofs
end

section
/-!
The nine setters on the reference target (20_memory.md R70): each writes fields of its own, so a setter issued twice is as
issued once, and setters of different fields commute.
-/
namespace Sys2Proof.Proofs
open Sys2Proof.Machine

/-! ### The fields of the setters -/

/-- The fields the setters write (R181 to R189). -/
inductive SetterField where
  | frfMsb | frfMid | frfLsb | bandwidth | sf | cr | preambleMsb | preambleLsb | sync | crc | header | power

namespace SetterField

/-- The place of the field's register in the register map (R66). -/
def place : SetterField → Fin 24
  | .frfMsb => 2
  | .frfMid => 3
  | .frfLsb => 4
  | .power => 5
  | .bandwidth | .cr | .header => 15
  | .sf | .crc => 16
  | .preambleMsb => 17
  | .preambleLsb => 18
  | .sync => 21

/-- The mask of the field (R67); the registers of one field are written whole. -/
def mask (c : Config) : SetterField → Byte
  | .bandwidth => c.bwField.mask
  | .cr => c.crField.mask
  | .header => c.implicitMask
  | .sf => c.sfField.mask
  | .crc => c.crcMask
  | .frfMsb | .frfMid | .frfLsb | .preambleMsb | .preambleLsb | .sync | .power => 0xFF

/-- The register of the field. -/
def reg (c : Config) (f : SetterField) : RegNum := c.regs.toList[f.place]'(f.place.isLt)

/-- The setter that writes the field. -/
def owner : SetterField → Command
  | .frfMsb | .frfMid | .frfLsb => .setFrequency
  | .bandwidth => .setBandwidth
  | .sf => .setSf
  | .cr => .setCr
  | .preambleMsb | .preambleLsb => .setPreamble
  | .sync => .setSync
  | .crc => .enableCrc
  | .header => .implicitHeader
  | .power => .setTxPower

/-- A write of the field. -/
def write (c : Config) (x : SetterField × Byte) : FieldWrite := ⟨x.1.reg c, x.1.mask c, x.2⟩

end SetterField

/-- The fields that share a register of modem fields have disjoint masks (R67). -/
theorem modem_masks_disjoint {c : Config} (h : c.admitted = true) :
    c.bwField.mask &&& c.crField.mask = 0 ∧ c.bwField.mask &&& c.implicitMask = 0 ∧
      c.crField.mask &&& c.implicitMask = 0 ∧ c.sfField.mask &&& c.crcMask = 0 := by
  simp only [Config.admitted, Config.masksDisjoint, disjointMasks, Bool.and_eq_true, decide_eq_true_eq,
    List.pairwise_cons, List.mem_cons, List.not_mem_nil, or_false, forall_eq_or_imp, forall_eq] at h
  obtain ⟨⟨⟨⟨⟨⟨⟨-, ⟨⟨⟨⟨⟨hcr, himplicit⟩, hcr_implicit, -⟩, hsf, -⟩, -⟩, -⟩⟩, -⟩, -⟩, -⟩, -⟩, -⟩, -⟩ := h
  exact ⟨hcr, himplicit, hcr_implicit, hsf⟩

/-- Different fields have no bit in common: their registers differ, or their masks are disjoint. -/
theorem fields_apart {c : Config} (h : c.admitted = true) {f g : SetterField} (hne : f ≠ g) (v w : Byte) :
    (SetterField.write c (f, v)).Apart (SetterField.write c (g, w)) := by
  by_cases hplace : f.place = g.place
  · obtain ⟨hbwcr, hbwhdr, hcrhdr, hsfcrc⟩ := modem_masks_disjoint h
    right
    cases f <;> cases g <;> simp_all [SetterField.place, SetterField.write, SetterField.mask, BitVec.and_comm]
  · exact .inl (regs_ne h _ _ hplace)

/-! ### What each setter writes -/

/-- The fields a setter writes with the tracked header mode `hdr`, and the bits it writes there. -/
def setterWrites (c : Config) (hdr : HdrMode) : Instr → List (SetterField × Byte)
  | .setFrequency f =>
    [(.frfMsb, (frfWord c f).extractLsb' 16 8), (.frfMid, (frfWord c f).extractLsb' 8 8),
      (.frfLsb, (frfWord c f).extractLsb' 0 8)]
  | .setBandwidth w => [(.bandwidth, fieldBits c.bwField ((bwCode c w).zeroExtend 8))]
  | .setSf sf => [(.sf, fieldBits c.sfField (sfCode sf))]
  | .setCr d => [(.cr, fieldBits c.crField (crCode d))]
  | .setPreamble len => [(.preambleMsb, len.extractLsb' 8 8), (.preambleLsb, len.extractLsb' 0 8)]
  | .setSync sync => [(.sync, sync)]
  | .enableCrc e => [(.crc, flagBits c.crcMask e)]
  | .implicitHeader e => if hdr = wantedHeader e then [] else [(.header, flagBits c.implicitMask e)]
  | .setTxPower level => [(.power, powerByte c level)]
  | _ => []

/-- The tracked header mode after a setter (R34). -/
def setterHeader (hdr : HdrMode) : Instr → HdrMode
  | .implicitHeader e => wantedHeader e
  | _ => hdr

/-- The command of a setter. -/
def setterCommand : Instr → Command
  | .setFrequency _ => .setFrequency
  | .setBandwidth _ => .setBandwidth
  | .setSf _ => .setSf
  | .setCr _ => .setCr
  | .setPreamble _ => .setPreamble
  | .setSync _ => .setSync
  | .enableCrc _ => .enableCrc
  | .implicitHeader _ => .implicitHeader
  | _ => .setTxPower

section
variable {c : Config} {hdr : HdrMode} {i j : Instr}

/-- A setter writes only bits of its fields. -/
theorem setterWrites_fit : ∀ x ∈ setterWrites c hdr i, (SetterField.write c x).Fits := by
  cases i
  case setFrequency =>
    exact List.forall_mem_cons.2 ⟨and_whole _, List.forall_mem_cons.2 ⟨and_whole _,
      List.forall_mem_singleton.2 (and_whole _)⟩⟩
  case setPreamble => exact List.forall_mem_cons.2 ⟨and_whole _, List.forall_mem_singleton.2 (and_whole _)⟩
  case setSync | setTxPower => exact List.forall_mem_singleton.2 (and_whole _)
  case setBandwidth | setSf | setCr => exact List.forall_mem_singleton.2 (fieldBits_and_mask _ _)
  case enableCrc => exact List.forall_mem_singleton.2 (flagBits_and_mask _ _)
  case implicitHeader e =>
    rw [setterWrites]
    split
    · nofun
    · exact List.forall_mem_singleton.2 (flagBits_and_mask _ _)
  all_goals nofun

/-- A setter writes fields of its own. -/
theorem setterWrites_owner : ∀ x ∈ setterWrites c hdr i, x.1.owner = setterCommand i := by
  cases i
  case implicitHeader e =>
    rw [setterWrites]
    split <;> simp [SetterField.owner, setterCommand]
  all_goals simp [setterWrites, SetterField.owner, setterCommand]

/-- A setter writes no field twice. -/
theorem setterWrites_pairwise : (setterWrites c hdr i).Pairwise fun x y => x.1 ≠ y.1 := by
  cases i
  case implicitHeader e =>
    rw [setterWrites]
    split <;> simp
  all_goals simp [setterWrites]

/-- Setters of different fields are different commands. -/
theorem setterCommand_ne (hi : isSetter i = true) (hj : isSetter j = true) (h : sameSetter i j = false) :
    setterCommand i ≠ setterCommand j := by
  cases i <;> cases j <;> simp_all [isSetter, sameSetter, setterCommand]

end

/-- The writes of a setter to the target's registers. -/
def setterFields (c : Config) (hdr : HdrMode) (i : Instr) : List FieldWrite :=
  (setterWrites c hdr i).map (SetterField.write c)

theorem setterFields_fit {c : Config} {hdr : HdrMode} {i : Instr} : ∀ x ∈ setterFields c hdr i, x.Fits :=
  List.forall_mem_map.2 setterWrites_fit

/-- A setter's fields are different ones. -/
theorem setterFields_pairwise {c : Config} (h : c.admitted = true) {hdr : HdrMode} {i : Instr} :
    (setterFields c hdr i).Pairwise FieldWrite.Apart :=
  List.pairwise_map.2 (setterWrites_pairwise.imp fun hne => fields_apart h hne _ _)

/-- The fields of different setters are different. -/
theorem setterFields_apart {c : Config} (h : c.admitted = true) {hdr hdr' : HdrMode} {i j : Instr} (hi : isSetter i = true)
    (hj : isSetter j = true) (hij : sameSetter i j = false) :
    ∀ x ∈ setterFields c hdr i, ∀ y ∈ setterFields c hdr' j, x.Apart y := by
  refine List.forall_mem_map.2 fun x hx => List.forall_mem_map.2 fun y hy => fields_apart h ?_ _ _
  intro he
  have hcommand : setterCommand i = setterCommand j := by
    rw [← setterWrites_owner x hx, ← setterWrites_owner y hy, he]
  exact setterCommand_ne hi hj hij hcommand

/-! ### The run of a setter -/

/-- A setter is issued in `s` and answers in `t` after at most three moves of HCTX: it writes its fields, and what the next
setter reads of the block is as the header mode says. -/
structure SetterRun (i : Instr) (s t : State) (k : Nat) (l : List Emitted) (first : HUpc) : Prop where
  exec : exec i s = runCommand (needsDriver s) (acceptAt first) s
  run : HostRun k (acceptAt first s) t l
  moves : k ≤ 3
  idle : t.hupc = .idle
  drv : t.drv = s.drv
  hdr : t.hdr = setterHeader s.hdr i
  fields : s.cfg.admitted = true → Live s →
    (accesses s.cfg.regs s.rst (l.filterMap accessOf) s.env).tmem = writeFields s.env.tmem (setterFields s.cfg s.hdr i)

theorem setter_runs {i : Instr} (hi : isSetter i = true) (s : State) : ∃ t k l first, SetterRun i s t k l first := by
  have plain (h : s.cfg.admitted = true) := plainReg_of_admitted h
  cases i
  case setFrequency f =>
    exact ⟨_, _, _, _, rfl, run_setFrequency f s, le_rfl, rfl, rfl, rfl, fun h hl =>
      accesses_writes [(s.cfg.regs.frfMsb, _), (s.cfg.regs.frfMid, _), (s.cfg.regs.frfLsb, _)] hl
        (by simp [plain h])⟩
  case setBandwidth w =>
    exact ⟨_, _, _, _, rfl,
      run_rmw (a := s.cfg.regs.modemConfig1) (hdr := s.hdr) (code := bwCode s.cfg w)
        (second := .setBandwidth w .x2) nofun nofun rfl rfl,
      by decide, rfl, rfl, rfl, fun h hl => accesses_rmw _ _ hl (plain h _ (by simp))⟩
  case setSf sf =>
    exact ⟨_, _, _, _, rfl, run_setSf sf s, by decide, rfl, rfl, rfl,
      fun h hl => accesses_rmw _ _ hl (plain h _ (by simp))⟩
  case setCr d =>
    exact ⟨_, _, _, _, rfl, run_setCr d s, by decide, rfl, rfl, rfl,
      fun h hl => accesses_rmw _ _ hl (plain h _ (by simp))⟩
  case setPreamble len =>
    exact ⟨_, _, _, _, rfl, run_setPreamble len s, by decide, rfl, rfl, rfl, fun h hl =>
      accesses_writes [(s.cfg.regs.preambleMsb, _), (s.cfg.regs.preambleLsb, _)] hl (by simp [plain h])⟩
  case setSync sync =>
    exact ⟨_, _, _, .setSync sync, rfl,
      .single (t := respond .ok [] (syncWrite sync s)) (l := [hWr s.cfg.regs.syncWord sync, .response [s.cfg.statuses.ok]])
        nofun rfl ⟨[_, _], rfl, rfl⟩ rfl rfl,
      by decide, rfl, rfl, rfl, fun h hl => accesses_write sync hl (plain h _ (by simp))⟩
  case enableCrc e =>
    exact ⟨_, _, _, _, rfl,
      run_rmw (a := s.cfg.regs.modemConfig2) (hdr := s.hdr) (code := s.hctx.code)
        (second := .enableCrc e .x2) nofun nofun rfl rfl,
      by decide, rfl, rfl, rfl, fun h hl => accesses_rmw _ _ hl (plain h _ (by simp))⟩
  case implicitHeader e =>
    by_cases hmatch : s.hdr = wantedHeader e
    · exact ⟨_, _, _, .implicitHeader e .h1, rfl,
        .single (t := respond .ok [] s) (l := [.response [s.cfg.statuses.ok]]) nofun (if_pos hmatch) ⟨[_], rfl, rfl⟩
          rfl rfl,
        by decide, rfl, rfl, hmatch, fun _ _ => by simp [setterFields, setterWrites, hmatch]; rfl⟩
    · refine ⟨_, _, _, _, rfl,
        run_rmw (a := s.cfg.regs.modemConfig1) (hdr := wantedHeader e) (code := s.hctx.code)
          (second := .implicitHeader e .h2) nofun nofun
          (hostStep_header_h1 hmatch) rfl,
        by decide, rfl, rfl, rfl, fun h hl => ?_⟩
      rw [setterFields, setterWrites, if_neg hmatch]
      exact accesses_rmw _ _ hl (plain h _ (by simp))
  case setTxPower level =>
    exact ⟨_, _, _, _, rfl, run_setTxPower level s, by decide, rfl, rfl, rfl,
      fun h hl => accesses_write _ hl (plain h _ (by simp))⟩
  all_goals nomatch hi

/-- A setter with three moves granted completes: it writes its fields, the block is ready for the next command and what is
left of its moves is there for it. -/
structure SetterDone (i : Instr) (s t : State) (rest : List Turn) : Prop where
  exec : exec i s = .next t
  tmem : t.env.tmem = writeFields s.env.tmem (setterFields s.cfg s.hdr i)
  hdr : t.hdr = setterHeader s.hdr i
  cfg : t.cfg = s.cfg
  ready : Ready t
  regular : Regular t
  live : Live t
  moves : ∃ j, t.env.script = List.replicate j .host ++ rest

theorem setter_done {i : Instr} {s : State} {rest : List Turn} (hi : isSetter i = true) (hready : Ready s) (hr : Regular s)
    (hlive : Live s) (hg : Granted 3 rest s) : ∃ t, SetterDone i s t rest := by
  obtain ⟨t, k, l, first, h⟩ := setter_runs hi s
  have hmoves : Granted k (List.replicate (3 - k) .host ++ rest) s := by
    rw [Granted, ← List.append_assoc, List.replicate_append_replicate, Nat.add_sub_cancel' h.moves]
    exact hg
  have hcompletes := h.run.completes hready hmoves h.idle
  have henv : (setScript (List.replicate (3 - k) .host ++ rest) t).env.tmem =
      (accesses s.cfg.regs s.rst (l.filterMap accessOf) s.env).tmem :=
    (congrArg Env.tmem h.run.env : t.env.tmem = _)
  have hkind : t.env.kind = s.env.kind := by rw [h.run.env]; exact (accesses_frame _ _).1
  refine ⟨_, h.exec.trans hcompletes, henv.trans (h.fields hr.1 hlive), h.hdr, h.run.cfg,
    ⟨⟨h.idle, ?_⟩, h.drv.trans hready.2⟩, ⟨?_, ?_⟩, ?_, 3 - k, rfl⟩
  · exact (hostBlocked_congr h.run.cfg h.run.iupc h.run.lock).trans hready.1.2
  · exact (congrArg Config.admitted h.run.cfg).trans hr.1
  · rw [henv]
    exact accesses_wf _ hr.2
  · have hrst : t.rst = s.rst := h.run.rst
    change targetLive t.rst t.env = true
    rw [targetLive, hkind, hrst]
    exact hlive

/-- Two setters in turn, with six moves granted. -/
theorem setters_done {i j : Instr} {s : State} {rest : List Turn} (hi : isSetter i = true) (hj : isSetter j = true)
    (hready : Ready s) (hr : Regular s) (hlive : Live s) (hg : Granted 6 rest s) :
    ∃ t u, exec i s = .next t ∧ exec j t = .next u ∧
      t.env.tmem = writeFields s.env.tmem (setterFields s.cfg s.hdr i) ∧
      u.env.tmem = writeFields t.env.tmem (setterFields s.cfg (setterHeader s.hdr i) j) := by
  obtain ⟨t, ht⟩ := setter_done (rest := List.replicate 3 .host ++ rest) hi hready hr hlive hg
  obtain ⟨m, hm⟩ := ht.moves
  have hmoves : Granted 3 (List.replicate m .host ++ rest) t := by
    rw [Granted, hm, ← List.append_assoc, ← List.append_assoc, List.replicate_append_replicate,
      List.replicate_append_replicate, Nat.add_comm]
  obtain ⟨u, hu⟩ := setter_done hj ht.ready ht.regular ht.live hmoves
  exact ⟨t, u, ht.exec, hu.exec, ht.tmem, by rw [hu.tmem, ht.cfg, ht.hdr]⟩

/-! ### The two statements -/

/-- A setter's writes depend on the header mode only in IMPLICIT_HEADER, which writes nothing where the mode matches. -/
theorem setterFields_header (c : Config) (hdr : HdrMode) {i j : Instr} (h : setterCommand i ≠ setterCommand j) :
    setterFields c (setterHeader hdr i) j = setterFields c hdr j := by
  cases i
  case implicitHeader e =>
    cases j
    case implicitHeader e' => exact absurd rfl h
    all_goals rfl
  all_goals rfl

/-- The second of two equal setters writes what the first did, or nothing. -/
theorem writeFields_again {m : Memory} (hwf : m.wf = true) {c : Config} (h : c.admitted = true) (hdr : HdrMode) (i : Instr) :
    writeFields (writeFields m (setterFields c hdr i)) (setterFields c (setterHeader hdr i) i) =
      writeFields m (setterFields c hdr i) := by
  cases i
  case implicitHeader e =>
    have hnone : setterFields c (wantedHeader e) (.implicitHeader e) = [] := by simp [setterFields, setterWrites]
    rw [setterHeader, hnone]
    rfl
  all_goals exact writeFields_idem hwf setterFields_fit (setterFields_pairwise h)

/-- Settles O38: the second time a setter writes the same bits to the same fields, or nothing. -/
theorem settersIdempotent : Obligations.SettersIdempotent := by
  intro i rest s hi hready hr hlive hg
  obtain ⟨t, u, ht, hu, htm, hum⟩ := setters_done hi hi hready hr hlive hg
  exact ⟨t, u, ht, hu, by rw [hum, htm, writeFields_again hr.2 hr.1]⟩

/-- Settles O39: each order writes the same fields, no two of which have a bit in common. -/
theorem settersCommute : Obligations.SettersCommute := by
  intro i j rest s hi hj hij hready hr hlive hg
  obtain ⟨t, u, ht, hu, htm, hum⟩ := setters_done hi hj hready hr hlive hg
  obtain ⟨t', u', ht', hu', htm', hum'⟩ := setters_done hj hi hready hr hlive hg
  have hne := setterCommand_ne hi hj hij
  refine ⟨t, u, t', u', ht, hu, ht', hu', ?_⟩
  rw [hum, htm, hum', htm', setterFields_header s.cfg s.hdr hne, setterFields_header s.cfg s.hdr hne.symm]
  exact writeFields_comm hr.2 setterFields_fit setterFields_fit (setterFields_apart hr.1 hi hj hij)

end Sys2Proof.Proofs
end

section
/-!
INIT with a matching version (41_mode_control.md R152, R153): its steps i1 to i25 in four stretches, each of which leaves the
block as the next one finds it, and the fields it writes.
-/
namespace Sys2Proof.Proofs
open Sys2Proof.Machine

/-! ### Runs that write fields -/

/-- A run of HCTX that leaves the block as `b` says and writes the fields `w` of a live target's registers. -/
structure FieldRun (k : Nat) (s t : State) (l : List Emitted) (w : List FieldWrite) (b : State) : Prop where
  run : HostRun k s t l
  fields : s.cfg.admitted = true → Live s → t.env.tmem = writeFields s.env.tmem w
  block : block t = b
  cs : t.cs = .high

theorem FieldRun.trans {j k : Nat} {s t u : State} {l m : List Emitted} {w x : List FieldWrite} {b c : State}
    (h : FieldRun j s t l w b) (h' : FieldRun k t u m x c) : FieldRun (j + k) s u (l ++ m) (w ++ x) c where
  run := h.run.trans h'.run
  fields hadm hlive := by
    have hlive' : Live t := by
      rw [Live, h.run.rst, h.run.env]
      exact accesses_live _ hlive
    rw [writeFields_append, ← h.fields hadm hlive]
    exact h'.fields (h.run.cfg ▸ hadm) hlive'
  block := h'.block
  cs := h'.cs

section
variable {s : State} {p : RadioParameters} {k : InitStep} {a : RegNum} {v : Byte}

theorem hostStep_init (hs : s.hupc = .init p k) : hostStep s = stepInit p k s := by
  simp only [hostStep, hs]

theorem init_busy (hs : s.hupc = .init p k) : s.hupc ≠ .idle := hs ▸ nofun

/-- A step of INIT that writes a plainly stored register. -/
theorem init_write (hs : s.hupc = .init p k) {l : List Emitted} (ha : s.cfg.admitted = true → plainReg s.cfg.regs a = true)
    (hl : l.filterMap accessOf = [(a, some v)]) (hout : PutOut s (stepInit p k s) l)
    (henv : (stepInit p k s).env = envAfterWrite a v s)
    (hkept : ((stepInit p k s).cfg, (stepInit p k s).rst, (stepInit p k s).iupc, (stepInit p k s).lock) =
      (s.cfg, s.rst, s.iupc, s.lock))
    (hcs : (stepInit p k s).cs = .high) :
    FieldRun 1 s (stepInit p k s) l [.whole a v] (block (stepInit p k s)) where
  run := .single (init_busy hs) (hostStep_init hs) hout (by rw [hl]; exact henv) hkept
  fields hadm hlive := (congrArg Env.tmem henv).trans (accesses_write v hlive (ha hadm))
  block := rfl
  cs := hcs

/-- Two steps of INIT that read a plainly stored register and write it back merged (R144). -/
theorem init_rmw {k' k'' : InitStep} {hdr : HdrMode} {code : BitVec 4} {mask bits : Byte} (hs : s.hupc = .init p k)
    (ha : s.cfg.admitted = true → plainReg s.cfg.regs a = true)
    (hread : stepInit p k s = { hostRead a (beforeRead hdr code s) with hupc := .init p k' })
    (hmerge : stepInit p k' { hostRead a (beforeRead hdr code s) with hupc := .init p k' } =
      { hostMerge a mask bits (hostRead a (beforeRead hdr code s)) with hupc := .init p k'' }) :
    FieldRun 2 s { hostMerge a mask bits (hostRead a (beforeRead hdr code s)) with hupc := .init p k'' }
      [hRd a (captured a s), hWr a (mergeField (captured a s) mask bits)] [⟨a, mask, bits⟩]
      { block s with
        hupc := .init p k'', hdr := hdr
        hctx := { s.hctx with t := captured a s, m := mergeField (captured a s) mask bits, code := code } } where
  run :=
    .trans (.single (l := [_]) (init_busy hs) ((hostStep_init hs).trans hread) ⟨[_], rfl, rfl⟩ rfl rfl)
      (.single (l := [_]) nofun hmerge ⟨[_], rfl, rfl⟩ rfl rfl)
  fields hadm hlive := accesses_rmw mask bits hlive (ha hadm)
  block := rfl
  cs := rfl

end

/-! ### The stretches -/

section
variable {s b : State} {p : RadioParameters}

/-- i1 with a matching version reads it and changes T alone. -/
theorem init_version (hb : block s = b) (hs : b.hupc = .init p .i1)
    (hver : captured b.cfg.regs.version s = b.cfg.expectedVersion) :
    ∃ t, FieldRun 1 s t [hRd b.cfg.regs.version b.cfg.expectedVersion] []
      { b with hupc := .init p .i2, hctx := { b.hctx with t := b.cfg.expectedVersion } } := by
  subst hb
  replace hs : s.hupc = .init p .i1 := hs
  have hstep : hostStep s = { hostRead s.cfg.regs.version s with hupc := .init p .i2 } :=
    (hostStep_init hs).trans (if_pos hver :)
  refine ⟨_, .single (init_busy hs) hstep ⟨[_], rfl, ?_⟩ rfl rfl, fun hadm _ => ?_, ?_, rfl⟩
  · exact congrArg (fun r => [hRd s.cfg.regs.version r]) hver
  · have hfifo : s.cfg.regs.version ≠ s.cfg.regs.fifo := regs_ne hadm 23 0 (by decide)
    exact targetAfterRead_tmem hfifo
  · exact congrArg (fun r => { block s with hupc := .init p .i2, hctx := { s.hctx with t := r } }) hver

/-- i2 to i5: the target is put to sleep, and the frequency word written. -/
theorem init_frequency (hb : block s = b) (hs : b.hupc = .init p .i2) :
    ∃ t, FieldRun 4 s t
      [hWr b.cfg.regs.opMode (b.cfg.opmodeLongRange ||| b.cfg.opmodeSleep),
        hWr b.cfg.regs.frfMsb ((frfWord b.cfg p.frequency).extractLsb' 16 8),
        hWr b.cfg.regs.frfMid ((frfWord b.cfg p.frequency).extractLsb' 8 8),
        hWr b.cfg.regs.frfLsb ((frfWord b.cfg p.frequency).extractLsb' 0 8)]
      [.whole b.cfg.regs.opMode (b.cfg.opmodeLongRange ||| b.cfg.opmodeSleep),
        .whole b.cfg.regs.frfMsb ((frfWord b.cfg p.frequency).extractLsb' 16 8),
        .whole b.cfg.regs.frfMid ((frfWord b.cfg p.frequency).extractLsb' 8 8),
        .whole b.cfg.regs.frfLsb ((frfWord b.cfg p.frequency).extractLsb' 0 8)]
      { b with
        hupc := .init p .i6, mode := .sleep, freq := p.frequency
        hctx := { b.hctx with frf := frfWord b.cfg p.frequency } } := by
  subst hb
  replace hs : s.hupc = .init p .i2 := hs
  have plain (h : s.cfg.admitted = true) := plainReg_of_admitted h
  have i2 := init_write (k := .i2) (l := [hWr _ _]) hs (fun h => plain h _ (by simp)) rfl ⟨[_], rfl, rfl⟩ rfl rfl rfl
  have i3 := init_write (k := .i3) (s := stepInit p .i2 s) (l := [hWr s.cfg.regs.frfMsb _]) rfl
    (fun h => plain h _ (by simp)) rfl ⟨[_], rfl, rfl⟩ rfl rfl rfl
  have i4 := init_write (k := .i4) (s := stepInit p .i3 (stepInit p .i2 s)) (l := [hWr s.cfg.regs.frfMid _]) rfl
    (fun h => plain h _ (by simp)) rfl ⟨[_], rfl, rfl⟩ rfl rfl rfl
  have i5 := init_write (k := .i5) (s := stepInit p .i4 (stepInit p .i3 (stepInit p .i2 s)))
    (l := [hWr s.cfg.regs.frfLsb _]) rfl (fun h => plain h _ (by simp)) rfl ⟨[_], rfl, rfl⟩ rfl rfl rfl
  exact ⟨_, i2.trans (i3.trans (i4.trans i5))⟩

/-- i10 and i11: the AGC and the power byte are written. -/
theorem init_power (hb : block s = b) (hs : b.hupc = .init p .i10) :
    ∃ t, FieldRun 2 s t
      [hWr b.cfg.regs.modemConfig3 b.cfg.agcAutoValue, hWr b.cfg.regs.paConfig (powerByte b.cfg p.txPowerLevel)]
      [.whole b.cfg.regs.modemConfig3 b.cfg.agcAutoValue, .whole b.cfg.regs.paConfig (powerByte b.cfg p.txPowerLevel)]
      { b with hupc := .init p .i12 } := by
  subst hb
  replace hs : s.hupc = .init p .i10 := hs
  have plain (h : s.cfg.admitted = true) := plainReg_of_admitted h
  have i10 := init_write (l := [hWr s.cfg.regs.modemConfig3 _]) hs
    (fun h => plain h _ (by simp)) rfl ⟨[_], rfl, rfl⟩ rfl rfl rfl
  have i11 := init_write (k := .i11) (s := stepInit p .i10 s) (l := [hWr s.cfg.regs.paConfig _]) rfl
    (fun h => plain h _ (by simp)) rfl ⟨[_], rfl, rfl⟩ rfl rfl rfl
  exact ⟨_, i10.trans i11⟩

/-- i18 to i20: the preamble and the sync word are written. -/
theorem init_preamble (hb : block s = b) (hs : b.hupc = .init p .i18) :
    ∃ t, FieldRun 3 s t
      [hWr b.cfg.regs.preambleMsb (p.preambleLength.extractLsb' 8 8),
        hWr b.cfg.regs.preambleLsb (p.preambleLength.extractLsb' 0 8), hWr b.cfg.regs.syncWord p.syncWord]
      [.whole b.cfg.regs.preambleMsb (p.preambleLength.extractLsb' 8 8),
        .whole b.cfg.regs.preambleLsb (p.preambleLength.extractLsb' 0 8), .whole b.cfg.regs.syncWord p.syncWord]
      { b with hupc := .init p .i21 } := by
  subst hb
  replace hs : s.hupc = .init p .i18 := hs
  have plain (h : s.cfg.admitted = true) := plainReg_of_admitted h
  have i18 := init_write (l := [hWr s.cfg.regs.preambleMsb _]) hs
    (fun h => plain h _ (by simp)) rfl ⟨[_], rfl, rfl⟩ rfl rfl rfl
  have i19 := init_write (k := .i19) (s := stepInit p .i18 s) (l := [hWr s.cfg.regs.preambleLsb _]) rfl
    (fun h => plain h _ (by simp)) rfl ⟨[_], rfl, rfl⟩ rfl rfl rfl
  have i20 := init_write (k := .i20) (s := stepInit p .i19 (stepInit p .i18 s)) (l := [hWr s.cfg.regs.syncWord _]) rfl
    (fun h => plain h _ (by simp)) rfl ⟨[_], rfl, rfl⟩ rfl rfl rfl
  exact ⟨_, i18.trans (i19.trans i20)⟩

/-- i23 to i25: the FIFO bases are written, the target goes to Standby, and INIT answers. -/
theorem init_standby (hb : block s = b) (hs : b.hupc = .init p .i23) :
    ∃ t, FieldRun 3 s t
      [hWr b.cfg.regs.fifoTxBaseAddr b.cfg.fifoTxBaseVal, hWr b.cfg.regs.fifoRxBaseAddr b.cfg.fifoRxBaseVal,
        hWr b.cfg.regs.opMode (b.cfg.opmodeLongRange ||| b.cfg.opmodeStdby), .response [b.cfg.statuses.ok]]
      [.whole b.cfg.regs.fifoTxBaseAddr b.cfg.fifoTxBaseVal, .whole b.cfg.regs.fifoRxBaseAddr b.cfg.fifoRxBaseVal,
        .whole b.cfg.regs.opMode (b.cfg.opmodeLongRange ||| b.cfg.opmodeStdby)]
      { b with hupc := .idle, mode := .standby, drv := .ready } := by
  subst hb
  replace hs : s.hupc = .init p .i23 := hs
  have plain (h : s.cfg.admitted = true) := plainReg_of_admitted h
  have i23 := init_write (l := [hWr s.cfg.regs.fifoTxBaseAddr _]) hs
    (fun h => plain h _ (by simp)) rfl ⟨[_], rfl, rfl⟩ rfl rfl rfl
  have i24 := init_write (k := .i24) (s := stepInit p .i23 s) (l := [hWr s.cfg.regs.fifoRxBaseAddr _]) rfl
    (fun h => plain h _ (by simp)) rfl ⟨[_], rfl, rfl⟩ rfl rfl rfl
  have i25 := init_write (k := .i25) (s := stepInit p .i24 (stepInit p .i23 s))
    (l := [hWr s.cfg.regs.opMode _, .response _]) rfl
    (fun h => plain h _ (by simp)) rfl ⟨[_, _], rfl, rfl⟩ rfl rfl rfl
  exact ⟨_, i23.trans (i24.trans i25)⟩

/-- A read-modify-write of INIT, with what it reads and merges given by the configuration and the operands. -/
theorem init_merges {k k' k'' : InitStep} {a : Config → RegNum} {hdr : HdrMode → HdrMode}
    {code : Config → BitVec 4 → BitVec 4} {mask bits : Config → Byte}
    (ha : ∀ c : Config, c.admitted = true → plainReg c.regs (a c) = true)
    (hread : ∀ s, stepInit p k s =
      { hostRead (a s.cfg) (beforeRead (hdr s.hdr) (code s.cfg s.hctx.code) s) with hupc := .init p k' })
    (hmerge : ∀ s,
      stepInit p k' { hostRead (a s.cfg) (beforeRead (hdr s.hdr) (code s.cfg s.hctx.code) s) with hupc := .init p k' } =
        { hostMerge (a s.cfg) (mask s.cfg) (bits s.cfg)
            (hostRead (a s.cfg) (beforeRead (hdr s.hdr) (code s.cfg s.hctx.code) s)) with hupc := .init p k'' })
    (hb : block s = b) (hs : b.hupc = .init p k) :
    ∃ t r, FieldRun 2 s t [hRd (a b.cfg) r, hWr (a b.cfg) (mergeField r (mask b.cfg) (bits b.cfg))]
      [⟨a b.cfg, mask b.cfg, bits b.cfg⟩]
      { b with
        hupc := .init p k'', hdr := hdr b.hdr
        hctx := { b.hctx with t := r, m := mergeField r (mask b.cfg) (bits b.cfg), code := code b.cfg b.hctx.code } } := by
  subst hb
  exact ⟨_, _, init_rmw (s := s) hs (ha s.cfg) (hread s) (hmerge s)⟩

end

/-! ### The whole command -/

/-- The transfers of INIT with a matching version, `r1` to `r6` the bytes it reads back (R152). -/
def initTrace (p : RadioParameters) (c : Config) (r1 r2 r3 r4 r5 r6 : Byte) : List Emitted :=
  [hRd c.regs.version c.expectedVersion,
    hWr c.regs.opMode (c.opmodeLongRange ||| c.opmodeSleep),
    hWr c.regs.frfMsb ((frfWord c p.frequency).extractLsb' 16 8),
    hWr c.regs.frfMid ((frfWord c p.frequency).extractLsb' 8 8),
    hWr c.regs.frfLsb ((frfWord c p.frequency).extractLsb' 0 8),
    hRd c.regs.modemConfig1 r1,
    hWr c.regs.modemConfig1 (mergeField r1 c.bwField.mask
      (fieldBits c.bwField ((bwCode c p.signalBandwidth).zeroExtend 8))),
    hRd c.regs.lna r2,
    hWr c.regs.lna (mergeField r2 c.lnaBoostBits c.lnaBoostBits),
    hWr c.regs.modemConfig3 c.agcAutoValue,
    hWr c.regs.paConfig (powerByte c p.txPowerLevel),
    hRd c.regs.modemConfig1 r3,
    hWr c.regs.modemConfig1 (mergeField r3 c.implicitMask (flagBits c.implicitMask p.implicitHeader)),
    hRd c.regs.modemConfig2 r4,
    hWr c.regs.modemConfig2 (mergeField r4 c.sfField.mask (fieldBits c.sfField (sfCode p.spreadingFactor))),
    hRd c.regs.modemConfig1 r5,
    hWr c.regs.modemConfig1 (mergeField r5 c.crField.mask (fieldBits c.crField (crCode p.codingRate))),
    hWr c.regs.preambleMsb (p.preambleLength.extractLsb' 8 8),
    hWr c.regs.preambleLsb (p.preambleLength.extractLsb' 0 8),
    hWr c.regs.syncWord p.syncWord,
    hRd c.regs.modemConfig2 r6,
    hWr c.regs.modemConfig2 (mergeField r6 c.crcMask (flagBits c.crcMask p.enableCrc)),
    hWr c.regs.fifoTxBaseAddr c.fifoTxBaseVal,
    hWr c.regs.fifoRxBaseAddr c.fifoRxBaseVal,
    hWr c.regs.opMode (c.opmodeLongRange ||| c.opmodeStdby),
    .response [c.statuses.ok]]

/-- The fields INIT writes, in order. -/
def initFields (p : RadioParameters) (c : Config) : List FieldWrite :=
  [.whole c.regs.opMode (c.opmodeLongRange ||| c.opmodeSleep),
    .whole c.regs.frfMsb ((frfWord c p.frequency).extractLsb' 16 8),
    .whole c.regs.frfMid ((frfWord c p.frequency).extractLsb' 8 8),
    .whole c.regs.frfLsb ((frfWord c p.frequency).extractLsb' 0 8),
    ⟨c.regs.modemConfig1, c.bwField.mask, fieldBits c.bwField ((bwCode c p.signalBandwidth).zeroExtend 8)⟩,
    ⟨c.regs.lna, c.lnaBoostBits, c.lnaBoostBits⟩,
    .whole c.regs.modemConfig3 c.agcAutoValue,
    .whole c.regs.paConfig (powerByte c p.txPowerLevel),
    ⟨c.regs.modemConfig1, c.implicitMask, flagBits c.implicitMask p.implicitHeader⟩,
    ⟨c.regs.modemConfig2, c.sfField.mask, fieldBits c.sfField (sfCode p.spreadingFactor)⟩,
    ⟨c.regs.modemConfig1, c.crField.mask, fieldBits c.crField (crCode p.codingRate)⟩,
    .whole c.regs.preambleMsb (p.preambleLength.extractLsb' 8 8),
    .whole c.regs.preambleLsb (p.preambleLength.extractLsb' 0 8),
    .whole c.regs.syncWord p.syncWord,
    ⟨c.regs.modemConfig2, c.crcMask, flagBits c.crcMask p.enableCrc⟩,
    .whole c.regs.fifoTxBaseAddr c.fifoTxBaseVal,
    .whole c.regs.fifoRxBaseAddr c.fifoRxBaseVal,
    .whole c.regs.opMode (c.opmodeLongRange ||| c.opmodeStdby)]

/-- i1 to i25 with a matching version, one stretch after the other. -/
theorem run_initMatch (p : RadioParameters) {s : State} (hs : s.hupc = .init p .i1)
    (hver : captured s.cfg.regs.version s = s.cfg.expectedVersion) :
    ∃ t r1 r2 r3 r4 r5 r6, FieldRun 25 s t (initTrace p s.cfg r1 r2 r3 r4 r5 r6) (initFields p s.cfg)
      { block s with
        hupc := .idle, mode := .standby, drv := .ready, freq := p.frequency, hdr := wantedHeader p.implicitHeader
        hctx := { s.hctx with
          t := r6, m := mergeField r6 s.cfg.crcMask (flagBits s.cfg.crcMask p.enableCrc)
          frf := frfWord s.cfg p.frequency, code := bwCode s.cfg p.signalBandwidth } } := by
  have plain {c : Config} (h : c.admitted = true) := plainReg_of_admitted h
  obtain ⟨s1, h1⟩ := init_version (p := p) rfl hs hver
  obtain ⟨s2, h2⟩ := init_frequency (p := p) h1.block rfl
  obtain ⟨s3, r1, h3⟩ := init_merges (p := p) (k := .i6) (k' := .i7) (k'' := .i8) (a := fun c => c.regs.modemConfig1)
    (hdr := id) (code := fun c _ => bwCode c p.signalBandwidth) (mask := fun c => c.bwField.mask)
    (bits := fun c => fieldBits c.bwField ((bwCode c p.signalBandwidth).zeroExtend 8))
    (fun c h => plain h _ (by simp)) (fun _ => rfl) (fun _ => rfl) h2.block rfl
  obtain ⟨s4, r2, h4⟩ := init_merges (p := p) (k := .i8) (k' := .i9) (k'' := .i10) (a := fun c => c.regs.lna)
    (hdr := id) (code := fun _ => id) (mask := fun c => c.lnaBoostBits) (bits := fun c => c.lnaBoostBits)
    (fun c h => plain h _ (by simp)) (fun _ => rfl) (fun _ => rfl) h3.block rfl
  obtain ⟨s5, h5⟩ := init_power (p := p) h4.block rfl
  obtain ⟨s6, r3, h6⟩ := init_merges (p := p) (k := .i12) (k' := .i13) (k'' := .i14) (a := fun c => c.regs.modemConfig1)
    (hdr := fun _ => wantedHeader p.implicitHeader) (code := fun _ => id) (mask := fun c => c.implicitMask)
    (bits := fun c => flagBits c.implicitMask p.implicitHeader)
    (fun c h => plain h _ (by simp)) (fun _ => rfl) (fun _ => rfl) h5.block rfl
  obtain ⟨s7, r4, h7⟩ := init_merges (p := p) (k := .i14) (k' := .i15) (k'' := .i16) (a := fun c => c.regs.modemConfig2)
    (hdr := id) (code := fun _ => id) (mask := fun c => c.sfField.mask)
    (bits := fun c => fieldBits c.sfField (sfCode p.spreadingFactor))
    (fun c h => plain h _ (by simp)) (fun _ => rfl) (fun _ => rfl) h6.block rfl
  obtain ⟨s8, r5, h8⟩ := init_merges (p := p) (k := .i16) (k' := .i17) (k'' := .i18) (a := fun c => c.regs.modemConfig1)
    (hdr := id) (code := fun _ => id) (mask := fun c => c.crField.mask)
    (bits := fun c => fieldBits c.crField (crCode p.codingRate))
    (fun c h => plain h _ (by simp)) (fun _ => rfl) (fun _ => rfl) h7.block rfl
  obtain ⟨s9, h9⟩ := init_preamble (p := p) h8.block rfl
  obtain ⟨s10, r6, h10⟩ := init_merges (p := p) (k := .i21) (k' := .i22) (k'' := .i23)
    (a := fun c => c.regs.modemConfig2) (hdr := id) (code := fun _ => id) (mask := fun c => c.crcMask)
    (bits := fun c => flagBits c.crcMask p.enableCrc)
    (fun c h => plain h _ (by simp)) (fun _ => rfl) (fun _ => rfl) h9.block rfl
  obtain ⟨s11, h11⟩ := init_standby (p := p) h10.block rfl
  exact ⟨s11, r1, r2, r3, r4, r5, r6,
    h1.trans (h2.trans (h3.trans (h4.trans (h5.trans (h6.trans (h7.trans (h8.trans (h9.trans (h10.trans h11)))))))))⟩

/-- INIT runs to its response in 26 moves; i0 makes no transfer. -/
theorem run_init (p : RadioParameters) {s : State} (hidle : s.hupc = .idle)
    (hver : captured s.cfg.regs.version s = s.cfg.expectedVersion) :
    ∃ t r1 r2 r3 r4 r5 r6,
      HostRun 26 (acceptAt (.init p .i0) s) t (initTrace p s.cfg r1 r2 r3 r4 r5 r6) ∧ t.hupc = .idle ∧ t.cs = .high ∧
      (s.cfg.admitted = true → Live s → t.env.tmem = writeFields s.env.tmem (initFields p s.cfg)) ∧
      BlockIs t { s with
        armed := .none, pendRx := false, pendTx := false, hdr := wantedHeader p.implicitHeader
        drv := .ready, mode := .standby, freq := p.frequency
        hctx := { s.hctx with
          t := r6, m := mergeField r6 s.cfg.crcMask (flagBits s.cfg.crcMask p.enableCrc)
          frf := frfWord s.cfg p.frequency, code := bwCode s.cfg p.signalBandwidth } } := by
  have i0 : HostRun 1 (acceptAt (.init p .i0) s) { initEntry s with hupc := .init p .i1 } [] :=
    .single nofun rfl ⟨[], rfl, rfl⟩ rfl rfl
  obtain ⟨t, r1, r2, r3, r4, r5, r6, h⟩ := run_initMatch p (s := { initEntry s with hupc := .init p .i1 }) rfl hver
  refine ⟨t, r1, r2, r3, r4, r5, r6, i0.trans h.run, congrArg State.hupc h.block, h.cs, h.fields, ?_⟩
  rw [blockIs_iff, h.block, ← hidle]
  rfl

/-- The registers INIT accesses: it reads the version and writes only plainly stored ones. -/
theorem initTrace_plain (p : RadioParameters) {c : Config} (h : c.admitted = true) (r1 r2 r3 r4 r5 r6 : Byte) :
    plainAccesses c.regs ((initTrace p c r1 r2 r3 r4 r5 r6).filterMap accessOf) = true := by
  have hfifo : c.regs.version ≠ c.regs.fifo := regs_ne h 23 0 (by decide)
  exact plainAccesses_of_admitted h _ (by simp [initTrace, accessOf, hfifo])

/-- INIT granted its 26 moves completes in the state its run ends in. -/
theorem exec_init_match {p : RadioParameters} {rest : List Turn} {s t : State} {l : List Emitted} (hfree : PortFree s)
    (hpins : s.pinsReady = true) (hg : Granted 26 rest s) (h : HostRun 26 (acceptAt (.init p .i0) s) t l)
    (hidle : t.hupc = .idle) : exec (.init p) s = .next (setScript rest t) := by
  rw [exec_init_admitted p hfree.1 hpins, hg, h.runs hfree.2, runScript_idle hidle]

/-- Each step of INIT from i1 on makes one transfer, and i12 takes no branch (log 22). -/
theorem stepInit_transfers (p : RadioParameters) {k : InitStep} (hk : k ≠ .i0) (s : State) :
    transferCount (stepInit p k s).out = transferCount s.out + 1 ∧
      (k = .i12 → (stepInit p k s).hupc = .init p .i13) := by
  cases k
  case i0 => exact absurd rfl hk
  case i1 =>
    simp only [stepInit, initVersion]
    split <;> exact ⟨rfl, nofun⟩
  case i12 => exact ⟨rfl, fun _ => rfl⟩
  all_goals exact ⟨rfl, nofun⟩

/-- Settles O18: the run of INIT, and its steps one by one. -/
theorem initConfiguresTarget : Obligations.InitConfiguresTarget := by
  refine ⟨fun p rest s hfree hr hpins hver hg => ?_, fun p k s hs hb hk => ?_⟩
  · obtain ⟨t, r1, r2, r3, r4, r5, r6, h, hidle, hcs, -, hblock⟩ := run_init p hfree.1 hver
    refine ⟨_, r1, r2, r3, r4, r5, r6, exec_init_match hfree hpins hg h hidle, h.putOut, hblock,
      busFrame_of_accesses _ hr (initTrace_plain p hr.1 r1 r2 r3 r4 r5 r6) hcs
        (congrArg (fun e : Env => { e with script := rest }) h.env) ?_⟩
    simp [initTrace, accessOf]
  · rw [turn_host hb, hostStep_init hs]
    exact stepInit_transfers p hk s

/-! ### The fields read back -/

/-- A field by the place of its register in the register map (R66), its mask and its bits. -/
def placed (c : Config) (x : Fin 24 × Byte × Byte) : FieldWrite := ⟨c.regs.toList[x.1]'(x.1.isLt), x.2.1, x.2.2⟩

/-- The fields INIT writes after i2, by their places. -/
def initPlaced (p : RadioParameters) (c : Config) : List (Fin 24 × Byte × Byte) :=
  [(2, 0xFF, (frfWord c p.frequency).extractLsb' 16 8), (3, 0xFF, (frfWord c p.frequency).extractLsb' 8 8),
    (4, 0xFF, (frfWord c p.frequency).extractLsb' 0 8),
    (15, c.bwField.mask, fieldBits c.bwField ((bwCode c p.signalBandwidth).zeroExtend 8)),
    (6, c.lnaBoostBits, c.lnaBoostBits), (20, 0xFF, c.agcAutoValue), (5, 0xFF, powerByte c p.txPowerLevel),
    (15, c.implicitMask, flagBits c.implicitMask p.implicitHeader),
    (16, c.sfField.mask, fieldBits c.sfField (sfCode p.spreadingFactor)),
    (15, c.crField.mask, fieldBits c.crField (crCode p.codingRate)),
    (17, 0xFF, p.preambleLength.extractLsb' 8 8), (18, 0xFF, p.preambleLength.extractLsb' 0 8), (21, 0xFF, p.syncWord),
    (16, c.crcMask, flagBits c.crcMask p.enableCrc), (8, 0xFF, c.fifoTxBaseVal), (9, 0xFF, c.fifoRxBaseVal),
    (1, 0xFF, c.opmodeLongRange ||| c.opmodeStdby)]

theorem initFields_eq (p : RadioParameters) (c : Config) :
    initFields p c =
      .whole c.regs.opMode (c.opmodeLongRange ||| c.opmodeSleep) :: (initPlaced p c).map (placed c) := rfl

/-- The fields INIT writes after i2 have no bit in common. -/
theorem initPlaced_apart (p : RadioParameters) {c : Config} (h : c.admitted = true) :
    ((initPlaced p c).map (placed c)).Pairwise FieldWrite.Apart := by
  obtain ⟨hbwcr, hbwhdr, hcrhdr, hsfcrc⟩ := modem_masks_disjoint h
  have hplaces : (initPlaced p c).Pairwise fun x y => x.1 ≠ y.1 ∨ x.2.1 &&& y.2.1 = 0 := by
    simp [initPlaced, hbwcr, hbwhdr, hsfcrc, BitVec.and_comm c.implicitMask, hcrhdr]
  exact List.pairwise_map.2 (hplaces.imp fun hxy => hxy.imp_left (regs_ne h _ _))

theorem initPlaced_fit (p : RadioParameters) (c : Config) : ∀ x ∈ (initPlaced p c).map (placed c), x.Fits := by
  simp only [initPlaced, List.map_cons, List.map_nil, List.forall_mem_cons]
  exact ⟨and_whole _, and_whole _, and_whole _, fieldBits_and_mask _ _, BitVec.and_self, and_whole _, and_whole _,
    flagBits_and_mask _ _, fieldBits_and_mask _ _, fieldBits_and_mask _ _, and_whole _, and_whole _, and_whole _,
    flagBits_and_mask _ _, and_whole _, and_whole _, and_whole _, nofun⟩

/-- Each of a list of fields without a common bit reads back. -/
theorem read_writeFields_getElem {m : Memory} (h : m.wf = true) (x : FieldWrite) {l : List FieldWrite}
    (hfit : ∀ y ∈ l, y.Fits) (hapart : l.Pairwise FieldWrite.Apart) (i : Nat) (hi : i < l.length) :
    (writeFields m (x :: l)).read (regAddress l[i].reg) &&& l[i].mask = l[i].bits := by
  have hsplit : x :: l = (x :: l.take i) ++ l[i] :: l.drop (i + 1) := by
    rw [List.cons_append, List.getElem_cons_drop, List.take_append_drop]
  rw [hsplit]
  refine read_writeFields h (hfit _ (List.getElem_mem hi)) fun y hy => ⟨hfit y (List.mem_of_mem_drop hy), ?_⟩
  have hdrop : (l.drop i).Pairwise FieldWrite.Apart := hapart.sublist (List.drop_sublist i l)
  rw [← List.getElem_cons_drop hi, List.pairwise_cons] at hdrop
  exact (hdrop.1 y hy).symm

/-- Settles O19: no field INIT writes after i2 is overwritten. -/
theorem initFieldsReadBack : Obligations.InitFieldsReadBack := by
  intro p rest s hfree hr hlive hpins hver hg
  obtain ⟨t, r1, r2, r3, r4, r5, r6, h, hidle, -, hfields, -⟩ := run_init p hfree.1 hver
  have htmem : t.env.tmem = writeFields s.env.tmem (initFields p s.cfg) := hfields hr.1 hlive
  have hfield (i : Fin 17) : t.env.tmem.read (regAddress ((initPlaced p s.cfg).map (placed s.cfg))[i].reg) &&&
      ((initPlaced p s.cfg).map (placed s.cfg))[i].mask = ((initPlaced p s.cfg).map (placed s.cfg))[i].bits := by
    rw [htmem, initFields_eq]
    exact read_writeFields_getElem hr.2 _ (initPlaced_fit p s.cfg) (initPlaced_apart p hr.1) i i.isLt
  have hwhole (i : Fin 17) (hm : ((initPlaced p s.cfg).map (placed s.cfg))[i].mask = 0xFF) :
      t.env.tmem.read (regAddress ((initPlaced p s.cfg).map (placed s.cfg))[i].reg) =
        ((initPlaced p s.cfg).map (placed s.cfg))[i].bits := by
    rw [← hfield i, hm, and_whole]
  have hmsb : targetReg t.env s.cfg.regs.frfMsb = _ := hwhole 0 rfl
  have hmid : targetReg t.env s.cfg.regs.frfMid = _ := hwhole 1 rfl
  have hlsb : targetReg t.env s.cfg.regs.frfLsb = _ := hwhole 2 rfl
  have hpre : targetReg t.env s.cfg.regs.preambleMsb = _ := hwhole 10 rfl
  have hpre' : targetReg t.env s.cfg.regs.preambleLsb = _ := hwhole 11 rfl
  refine ⟨_, exec_init_match hfree hpins hg h hidle, hfield 3, hfield 9, hfield 7,
    hfield 8, hfield 13, ?frequency, hwhole 6 rfl, ?preamble,
    hwhole 12 rfl, hwhole 16 rfl⟩
  case frequency =>
    change targetReg t.env s.cfg.regs.frfMsb ++ targetReg t.env s.cfg.regs.frfMid ++
      targetReg t.env s.cfg.regs.frfLsb = frfWord s.cfg p.frequency
    rw [hmsb, hmid, hlsb]
    exact join_bytes24 _
  case preamble =>
    change targetReg t.env s.cfg.regs.preambleMsb ++ targetReg t.env s.cfg.regs.preambleLsb = p.preambleLength
    rw [hpre, hpre']
    exact join_bytes16 _

end Sys2Proof.Proofs
end

section
/-!
WRITE (41_mode_control.md R155): the loop of its step w2, which SEND_PACKET's steps s8 and s9 share, and what a run of writes
of the FIFO port does to the target (20_memory.md R83).
-/
namespace Sys2Proof.Proofs
open Sys2Proof.Machine

/-! ### Writes of the FIFO port -/

/-- The accesses of a run of writes of the FIFO port. -/
def fifoWrites (r : RegMap) (data : List Byte) : List (RegNum × Option Byte) := data.map fun v => (r.fifo, some v)

/-- A target that answers by draws keeps its memory. -/
theorem accesses_draw {r : RegMap} {rst : Pin} (l : List (RegNum × Option Byte)) {e : Env} (h : targetLive rst e = false) :
    (accesses r rst l e).tmem = e.tmem := by
  induction l generalizing e with
  | nil => rfl
  | cons x l ih =>
    obtain ⟨a, _ | v⟩ := x
    · exact (ih (e := targetAfterRead r rst e a) (by simpa using h)).trans (tmem_afterRead_draw h)
    · exact (ih (e := targetAfterWrite r rst e a v) (by simpa using h)).trans (tmem_afterWrite_draw h)

/-- Positions of the FIFO less than 256 apart are different. -/
theorem fifoAddress_add_ne (p : Byte) {i j : Nat} (hi : i < 256) (hj : j < 256) (h : i ≠ j) :
    fifoAddress (p + BitVec.ofNat 8 i) ≠ fifoAddress (p + BitVec.ofNat 8 j) := by
  rw [ne_eq, fifoAddress_inj, BitVec.add_right_inj]
  intro he
  have := congrArg BitVec.toNat he
  simp only [BitVec.toNat_ofNat] at this
  omega

/-- What the live reference target holds after bytes are written to the FIFO from the pointer on. -/
structure FifoHolds (r : RegMap) (data : List Byte) (e e' : Env) : Prop where
  wf : e'.tmem.wf = true
  pointer : fifoPointer r e' = fifoPointer r e + BitVec.ofNat 8 data.length
  kept : ∀ a, a ≠ regAddress r.fifoAddrPtr → (∀ j, j < data.length → a ≠ fifoAddress (fifoPointer r e + BitVec.ofNat 8 j)) →
    e'.tmem.read a = e.tmem.read a
  stored : data.length ≤ 256 →
    ∀ j, j < data.length → e'.tmem.read (fifoAddress (fifoPointer r e + BitVec.ofNat 8 j)) = data.getD j 0

theorem fifoHolds (r : RegMap) (rst : Pin) (data : List Byte) {e : Env} (hwf : e.tmem.wf = true)
    (hl : targetLive rst e = true) : FifoHolds r data e (accesses r rst (fifoWrites r data) e) := by
  induction data generalizing e with
  | nil => exact ⟨hwf, by simp [fifoWrites, accesses], fun _ _ _ => rfl, fun _ _ => nofun⟩
  | cons v data ih =>
    have hwrite := read_afterWrite_fifo (r := r) (rst := rst) v hwf hl
    have hstart : fifoPointer r (targetAfterWrite r rst e r.fifo v) = fifoPointer r e + 1 := by
      rw [fifoPointer, targetReg, hwrite, if_pos rfl]
    have hrest := ih (targetAfterWrite_wf r rst r.fifo v hwf) (by simpa using hl)
    have hnext (j : Nat) : fifoPointer r e + 1 + BitVec.ofNat 8 j = fifoPointer r e + BitVec.ofNat 8 (j + 1) := by
      rw [Nat.add_comm j 1, BitVec.ofNat_add, ← BitVec.add_assoc]
      rfl
    constructor
    · exact hrest.wf
    · exact hrest.pointer.trans (by rw [hstart, hnext, List.length_cons])
    · intro a hptr hfifo
      refine (hrest.kept a hptr fun j hj => ?_).trans ?_
      · rw [hstart, hnext]
        exact hfifo (j + 1) (Nat.succ_lt_succ hj)
      · have h0 := hfifo 0 (Nat.succ_pos _)
        rw [BitVec.add_zero] at h0
        rw [hwrite, if_neg hptr, if_neg h0]
    · intro hlen j hj
      rw [List.length_cons] at hlen hj
      cases j with
      | zero =>
        refine (hrest.kept _ (regAddress_ne_fifoAddress _ _).symm fun i hi => ?_).trans ?_
        · rw [hstart, hnext]
          exact fifoAddress_add_ne _ (by omega) (by omega) (by omega)
        · rw [hwrite, if_neg (regAddress_ne_fifoAddress _ _).symm, BitVec.add_zero, if_pos rfl]
          rfl
      | succ j =>
        have h := hrest.stored (by omega) j (by omega)
        rw [hstart, hnext] at h
        exact h

/-! ### The loop -/

/-- The stands `at_` of a WRITE of `n` bytes of `source` (R155, R212 s8 and s9). -/
structure WriteStands (at_ : WriteStep → HUpc) (n : Nat) (source : State → List Byte) : Prop where
  busy : ∀ k, at_ k ≠ .idle
  opens : ∀ s, hostStep { s with hupc := at_ .w1 } = { writeOpen n s with hupc := at_ (writeNext (writeOpen n s)) }
  writes : ∀ s, hostStep { s with hupc := at_ .w2 } =
    { writeByte (source s) s with hupc := at_ (writeNext (writeByte (source s) s)) }
  opened : ∀ s, source (writeOpen n s) = source s
  written : ∀ data s, source (writeByte data s) = source s

theorem writeStands_write (n : Nat) : WriteStands (.write n) n State.txb :=
  ⟨nofun, fun _ => rfl, fun _ => rfl, fun _ => rfl, fun _ _ => rfl⟩

theorem writeStands_s8 (src dst : Byte) (n : Nat) :
    WriteStands (fun k => .sendPacket src dst n (.s8 k)) headerLen fun s => s.hctx.hb :=
  ⟨nofun, fun _ => rfl, fun _ => rfl, fun _ => rfl, fun _ _ => rfl⟩

theorem writeStands_s9 (src dst : Byte) (n : Nat) :
    WriteStands (fun k => .sendPacket src dst n (.s9 k)) n State.txb :=
  ⟨nofun, fun _ => rfl, fun _ => rfl, fun _ => rfl, fun _ _ => rfl⟩

section
variable {at_ : WriteStep → HUpc} {n : Nat} {source : State → List Byte}

/-- The loop of w2 from CNT to K. -/
theorem run_writeLoop (h : WriteStands at_ n source) (m : Nat) {s : State}
    (hm : s.hctx.cnt.toNat + m = s.hctx.k.toNat) (hlen : s.hctx.k.toNat ≤ (source s).length) :
    ∃ u, HostRun m { s with hupc := at_ (writeNext s) } { u with hupc := at_ .w3 }
        ((((source s).drop s.hctx.cnt.toNat).take m).map (hWr s.cfg.regs.fifo)) ∧
      block u = { block s with hctx := { s.hctx with cnt := s.hctx.k } } := by
  induction m generalizing s with
  | zero =>
    have hcnt : s.hctx.cnt = s.hctx.k := BitVec.eq_of_toNat_eq hm
    have hnext : writeNext s = .w3 := if_neg (by rw [hcnt]; exact Nat.lt_irrefl _)
    refine ⟨s, ?_, by rw [← hcnt]; rfl⟩
    rw [hnext, List.take_zero]
    exact .refl _
  | succ m ih =>
    have hlt : s.hctx.cnt.toNat < s.hctx.k.toNat := by omega
    have hnext : writeNext s = .w2 := if_pos hlt
    have hstep : (writeByte (source s) s).hctx.cnt.toNat = s.hctx.cnt.toNat + 1 := by
      have := s.hctx.k.isLt
      change (s.hctx.cnt + 1).toNat = _
      bv_omega
    obtain ⟨u, hrun, hblock⟩ := ih (s := writeByte (source s) s) (by rw [hstep, Nat.add_assoc, Nat.add_comm 1]; exact hm)
      (by rw [h.written]; exact hlen)
    refine ⟨u, ?_, hblock.trans rfl⟩
    have hbyte : (((source s).drop s.hctx.cnt.toNat).take (m + 1)).map (hWr s.cfg.regs.fifo) =
        [hWr s.cfg.regs.fifo ((source s).getD s.hctx.cnt.toNat 0)] ++
          (((source s).drop (s.hctx.cnt.toNat + 1)).take m).map (hWr s.cfg.regs.fifo) := by
      have hcnt : s.hctx.cnt.toNat < (source s).length := by omega
      rw [List.drop_eq_getElem_cons hcnt, List.take_succ_cons, List.getD_eq_getElem _ _ hcnt]
      rfl
    rw [hstep, h.written] at hrun
    rw [hnext, hbyte]
    exact (HostRun.single (h.busy _) (h.writes s) ⟨[_], rfl, rfl⟩ rfl rfl).trans hrun |>.moves_eq (Nat.add_comm 1 m)

/-- w1 and the loop: K bytes of the source are written. -/
theorem run_writeBody (h : WriteStands at_ n source) {s : State} {c : Byte} {k : Nat}
    (hc : c = captured s.cfg.regs.payloadLength s) (hk : k = min n (255 - c.toNat)) (hlen : k ≤ (source s).length) :
    ∃ u, HostRun (1 + k) { s with hupc := at_ .w1 } { u with hupc := at_ .w3 }
        ([hRd s.cfg.regs.payloadLength c] ++ ((source s).take k).map (hWr s.cfg.regs.fifo)) ∧
      block u = { block s with
        hctx := { s.hctx with t := c, cur := c, k := BitVec.ofNat 8 k, cnt := BitVec.ofNat 8 k } } := by
  subst hc
  have hcount : (writeOpen n s).hctx.k = BitVec.ofNat 8 k := by rw [hk]; rfl
  have hnat : (writeOpen n s).hctx.k.toNat = k := by
    rw [hcount, BitVec.toNat_ofNat]
    exact Nat.mod_eq_of_lt (by omega)
  have hzero : (writeOpen n s).hctx.cnt.toNat = 0 := rfl
  obtain ⟨u, hrun, hblock⟩ := run_writeLoop h k (s := writeOpen n s) (by rw [hzero, hnat, Nat.zero_add])
    (by rw [hnat, h.opened]; exact hlen)
  rw [hzero, h.opened, List.drop_zero] at hrun
  refine ⟨u, (HostRun.single (l := [_]) (h.busy _) (h.opens s) ⟨[_], rfl, rfl⟩ rfl rfl).trans hrun, ?_⟩
  rw [hblock, ← hcount]
  rfl

end

/-! ### What the target holds after a WRITE -/

/-- The accesses of a WRITE that stores `data` and the length `v`. -/
def writeAccesses (r : RegMap) (data : List Byte) (v : Byte) : List (RegNum × Option Byte) :=
  [(r.payloadLength, none)] ++ fifoWrites r data ++ [(r.payloadLength, some v)]

/-- What the live reference target holds after a WRITE. -/
structure WriteHolds (r : RegMap) (data : List Byte) (v : Byte) (e e' : Env) : Prop where
  wf : e'.tmem.wf = true
  length : targetReg e' r.payloadLength = v
  pointer : fifoPointer r e' = fifoPointer r e + BitVec.ofNat 8 data.length
  kept : ∀ a, a ≠ regAddress r.fifoAddrPtr → a ≠ regAddress r.payloadLength →
    (∀ j, j < data.length → a ≠ fifoAddress (fifoPointer r e + BitVec.ofNat 8 j)) → e'.tmem.read a = e.tmem.read a
  stored : data.length ≤ 256 →
    ∀ j, j < data.length → e'.tmem.read (fifoAddress (fifoPointer r e + BitVec.ofNat 8 j)) = data.getD j 0

theorem writeHolds {c : Config} (h : c.admitted = true) {rst : Pin} (data : List Byte) (v : Byte) {e : Env}
    (hwf : e.tmem.wf = true) (hl : targetLive rst e = true) :
    WriteHolds c.regs data v e (accesses c.regs rst (writeAccesses c.regs data v) e) := by
  have hfifo : c.regs.payloadLength ≠ c.regs.fifo := regs_ne h 19 0 (by decide)
  have hptr : regAddress c.regs.fifoAddrPtr ≠ regAddress c.regs.payloadLength := fun he =>
    regs_ne h 7 19 (by decide) (regAddress_inj.1 he)
  have hread : (targetAfterRead c.regs rst e c.regs.payloadLength).tmem = e.tmem := targetAfterRead_tmem hfifo
  have hpointer : fifoPointer c.regs (targetAfterRead c.regs rst e c.regs.payloadLength) = fifoPointer c.regs e := by
    rw [fifoPointer, targetReg, hread]
    rfl
  have hl1 : targetLive rst (targetAfterRead c.regs rst e c.regs.payloadLength) = true := by simpa using hl
  have hbytes := fifoHolds c.regs rst data (hread ▸ hwf) hl1
  have hl2 := accesses_live (r := c.regs) (fifoWrites c.regs data) hl1
  rw [writeAccesses, accesses_append, accesses_append]
  change WriteHolds c.regs data v e (targetAfterWrite c.regs rst
    (accesses c.regs rst (fifoWrites c.regs data) (targetAfterRead c.regs rst e c.regs.payloadLength))
    c.regs.payloadLength v)
  generalize accesses c.regs rst (fifoWrites c.regs data) (targetAfterRead c.regs rst e c.regs.payloadLength) = e2
    at hbytes hl2 ⊢
  have hclose := read_afterWrite_plain v hbytes.wf hl2 (plainReg_of_admitted h c.regs.payloadLength (by simp))
  constructor
  · exact targetAfterWrite_wf _ _ _ _ hbytes.wf
  · rw [targetReg, hclose, if_pos rfl]
  · rw [fifoPointer, targetReg, hclose, if_neg hptr]
    exact hbytes.pointer.trans (by rw [hpointer])
  · intro a hne hlen hpos
    rw [hclose, if_neg hlen, hbytes.kept a hne (by rwa [hpointer]), hread]
  · intro hmax j hj
    rw [hclose, if_neg (regAddress_ne_fifoAddress _ _).symm, ← hpointer]
    exact hbytes.stored hmax j hj

/-! ### The command -/

/-- The command port's bytes stand at the front of TXB (R24). -/
theorem take_loadBuffer {old data : List Byte} {k : Nat} (hk : k ≤ data.length) (hmax : k ≤ 255) :
    (loadBuffer old data).take k = data.take k := by
  rw [loadBuffer, List.take_take, Nat.min_eq_left hmax, List.take_append_of_le_length hk]

theorem le_length_loadBuffer {old data : List Byte} {k : Nat} (hk : k ≤ data.length) (hmax : k ≤ 255) :
    k ≤ (loadBuffer old data).length := by
  rw [loadBuffer, List.length_take, List.length_append]
  omega

/-- The transfers of a WRITE. -/
theorem writeTrace_accesses (r : RegMap) (data : List Byte) (c v : Byte) (bytes : List Byte) :
    ([hRd r.payloadLength c] ++ data.map (hWr r.fifo) ++ [hWr r.payloadLength v, .response bytes]).filterMap accessOf =
      writeAccesses r data v := by
  simp [writeAccesses, fifoWrites, List.filterMap_append, accessOf, List.filterMap_cons, Function.comp_def]

/-- WRITE runs to its response in `k + 2` moves, `k` the bytes it writes. -/
theorem run_write {data : List Byte} {s : State} {c : Byte} {k : Nat} (hc : c = captured s.cfg.regs.payloadLength s)
    (hk : k = min data.length (255 - c.toNat)) (hidle : s.hupc = .idle) :
    ∃ t, HostRun (k + 2) (acceptBytes data (.write data.length .w1) s) t
        ([hRd s.cfg.regs.payloadLength c] ++ (data.take k).map (hWr s.cfg.regs.fifo) ++
          [hWr s.cfg.regs.payloadLength (c + BitVec.ofNat 8 k), .response [s.cfg.statuses.ok, BitVec.ofNat 8 k]]) ∧
      t.hupc = .idle ∧ t.cs = .high ∧
      BlockIs t { s with
        txb := loadBuffer s.txb data
        hctx := { s.hctx with t := c, cur := c, k := BitVec.ofNat 8 k, cnt := BitVec.ofNat 8 k } } := by
  obtain ⟨u, hrun, hblock⟩ := run_writeBody (writeStands_write data.length) (s := { s with txb := loadBuffer s.txb data })
    (c := c) (k := k) hc hk (le_length_loadBuffer (by omega) (by omega))
  have hctx : u.hctx = { s.hctx with t := c, cur := c, k := BitVec.ofNat 8 k, cnt := BitVec.ofNat 8 k } :=
    congrArg State.hctx hblock
  have hcfg : u.cfg = s.cfg := hrun.cfg
  have hclose : HostRun 1 { u with hupc := .write data.length .w3 } (respond .ok [u.hctx.k] (writeClose u))
      [hWr u.cfg.regs.payloadLength (u.hctx.cur + u.hctx.k), .response [u.cfg.statuses.ok, u.hctx.k]] :=
    .single nofun rfl ⟨[_, _], rfl, rfl⟩ rfl rfl
  have htrace : [hWr u.cfg.regs.payloadLength (u.hctx.cur + u.hctx.k), .response [u.cfg.statuses.ok, u.hctx.k]] =
      [hWr s.cfg.regs.payloadLength (c + BitVec.ofNat 8 k), .response [s.cfg.statuses.ok, BitVec.ofNat 8 k]] := by
    rw [hcfg, hctx]
  have htake : (loadBuffer s.txb data).take k = data.take k := take_loadBuffer (by omega) (by omega)
  refine ⟨_, htake ▸ (hrun.trans (htrace ▸ hclose)).moves_eq (by omega), rfl, rfl, ?_⟩
  rw [blockIs_iff, block_respond]
  have hwritten : block (writeClose u) = block u := rfl
  rw [hwritten, hblock, ← hidle]
  rfl

/-- Settles O22: the run of WRITE, and what its writes of the FIFO leave in a live target. -/
theorem writeAppendsWithinCapacity : Obligations.WriteAppendsWithinCapacity := by
  intro data rest s c p k hlen hready hr hc hp hk hg
  obtain ⟨⟨hidle, hb⟩, hdrv⟩ := hready
  replace hp : p = fifoPointer s.cfg.regs s.env := hp
  obtain ⟨t, hrun, htidle, hcs, hblock⟩ := run_write hc hk hidle
  have hexec : exec (.write data) s = .next (setScript rest t) := by
    rw [exec, execWrite, needsDriver_ready hdrv, runCommand_admitted hidle, hg, hrun.runs hb, runScript_idle htidle]
  have henv : t.env = accesses s.cfg.regs s.rst (writeAccesses s.cfg.regs (data.take k) (c + BitVec.ofNat 8 k)) s.env := by
    rw [hrun.env, ← writeTrace_accesses]
    rfl
  have hcount : (data.take k).length = k := by rw [List.length_take]; omega
  have hholds (hl : Live s) : WriteHolds s.cfg.regs (data.take k) (c + BitVec.ofNat 8 k) s.env t.env :=
    henv ▸ writeHolds hr.1 _ _ hr.2 hl
  obtain ⟨hkind, hturns, -⟩ := accesses_frame (r := s.cfg.regs) (rst := s.rst)
    (writeAccesses s.cfg.regs (data.take k) (c + BitVec.ofNat 8 k)) s.env
  have hframe : TargetFrame s t ((List.range k).map (fun j => fifoAddress (p + BitVec.ofNat 8 j)) ++
      [regAddress s.cfg.regs.fifoAddrPtr, regAddress s.cfg.regs.payloadLength]) := by
    intro a ha
    simp only [List.mem_append, List.mem_map, List.mem_range, List.mem_cons, List.not_mem_nil, or_false, not_or,
      not_exists, not_and] at ha
    obtain ⟨hfifo, hptr, hpl⟩ := ha
    by_cases hl : Live s
    · exact (hholds hl).kept a hptr hpl fun j hj he => hfifo j (hcount ▸ hj) (hp ▸ he.symm)
    · rw [henv, accesses_draw _ (Bool.eq_false_iff.2 hl)]
  refine ⟨_, hexec, hrun.putOut, by omega, hblock, ⟨hcs, ?_, ?_, rfl, hframe⟩, fun hl => (hholds hl).length,
    fun hl => ?_, fun hl j hj => ?_⟩
  · exact (congrArg Env.kind henv).trans hkind
  · exact (congrArg Env.turns henv).trans hturns
  · rw [hp, ← hcount]
    exact (hholds hl).pointer
  · have h := (hholds hl).stored (by omega) j (hcount.symm ▸ hj)
    rw [hp]
    refine h.trans ?_
    rw [List.getD_eq_getElem?_getD, List.getElem?_take, if_pos hj, List.getD_eq_getElem?_getD]

end Sys2Proof.Proofs
end

section
/-!
Runs of ICTX's steps (10_state.md R28, 60_exceptions.md R246 to R252): what a run puts out, which bytes of the
target it reads, and how it leaves the block; then the parts the two services share, and the services that end early or complete a
transmission.
-/
namespace Sys2Proof.Proofs
open Sys2Proof.Machine

/-! ### The bytes the target answers -/

/-- The bytes read in a trace are those the target shifts back, transfer after transfer (R69, R74). -/
def Answered (r : RegMap) (rst : Pin) : List Emitted → Env → Prop
  | [], _ => True
  | .rd _ a v :: rest, e => v = targetByte r rst e a ∧ Answered r rst rest (targetAfterRead r rst e a)
  | .wr _ a v :: rest, e => Answered r rst rest (targetAfterWrite r rst e a v)
  | .diag _ :: rest, e => Answered r rst rest e
  | .response _ :: rest, e => Answered r rst rest e
  | .pin _ :: rest, e => Answered r rst rest e

theorem answered_append {r : RegMap} {rst : Pin} {l m : List Emitted} {e : Env} :
    Answered r rst (l ++ m) e ↔ Answered r rst l e ∧ Answered r rst m (accesses r rst (l.filterMap accessOf) e) := by
  induction l generalizing e with
  | nil => simp [Answered, accesses]
  | cons x l ih =>
    cases x with
    | rd c a v => simp [Answered, accessOf, accesses, ih, and_assoc]
    | wr c a v => simp [Answered, accessOf, accesses, ih]
    | diag d => simp [Answered, accessOf, List.filterMap_cons, ih]
    | response bytes => simp [Answered, accessOf, List.filterMap_cons, ih]
    | pin o => simp [Answered, accessOf, List.filterMap_cons, ih]

section
variable {r : RegMap} {rst : Pin} {e : Env} {a : RegNum} {v x : Byte} {more : List Byte} {rest : List Emitted} {c : Ctx}

/-- A target that answers by draws takes the next byte laid down in a read. -/
theorem afterRead_laid (hl : targetLive rst e = false) (he : e.answers = x :: more) :
    targetAfterRead r rst e a = { e with answers := more } := by
  simp [targetAfterRead, hl, afterDraw, he]

/-- A target that answers by draws takes the next byte laid down in a write. -/
theorem afterWrite_laid (hl : targetLive rst e = false) (he : e.answers = x :: more) :
    targetAfterWrite r rst e a v = { e with answers := more } := by
  simp [targetAfterWrite, hl, afterDraw, he]

/-- The byte read is the next one laid down. -/
theorem answered_rd_laid (hl : targetLive rst e = false) (he : e.answers = x :: more)
    (h : Answered r rst (.rd c a v :: rest) e) : v = x ∧ Answered r rst rest { e with answers := more } := by
  obtain ⟨hv, hrest⟩ := h
  rw [afterRead_laid hl he] at hrest
  exact ⟨by rw [hv, targetByte, hl]; simp [drawnByte, he], hrest⟩

/-- A write passes over the next byte laid down. -/
theorem answered_wr_laid (hl : targetLive rst e = false) (he : e.answers = x :: more)
    (h : Answered r rst (.wr c a v :: rest) e) : Answered r rst rest { e with answers := more } := by
  rwa [Answered, afterWrite_laid hl he] at h

/-- As many transfers as bytes laid down take them all. -/
theorem accesses_laid (l : List (RegNum × Option Byte)) {used : List Byte} (hl : targetLive rst e = false)
    (he : e.answers = used ++ more) (hlen : l.length = used.length) :
    accesses r rst l e = { e with answers := more } := by
  induction l generalizing e used with
  | nil =>
    obtain rfl := List.length_eq_zero_iff.1 hlen.symm
    rw [List.nil_append] at he
    rw [accesses, ← he]
  | cons y l ih =>
    cases used with
    | nil => exact absurd hlen (Nat.succ_ne_zero _)
    | cons x used =>
      rw [List.cons_append] at he
      have hrest := ih (e := { e with answers := used ++ more }) hl rfl (Nat.succ.inj hlen)
      obtain ⟨a, _ | v⟩ := y
      · rw [accesses, afterRead_laid hl he, hrest]
      · rw [accesses, afterWrite_laid hl he, hrest]

end

/-! ### Runs -/

/-- `k` steps of ICTX take `s` to `t` with the trace `l`; the target is as the transfers of `l` leave it, and the block is
`b`. -/
structure IrqRun (k : Nat) (s t : State) (l : List Emitted) (b : State) : Prop where
  runs : runTurns (List.replicate k .irq) s = t
  putOut : PutOut s t l
  env : t.env = accesses s.cfg.regs s.rst (l.filterMap accessOf) s.env
  answered : Answered s.cfg.regs s.rst l s.env
  block : block t = b
  cfg : t.cfg = s.cfg
  rst : t.rst = s.rst

namespace IrqRun

/-- One step. -/
theorem single {s t : State} {l : List Emitted} (ht : irqStep s = t) (hout : PutOut s t l)
    (henv : t.env = accesses s.cfg.regs s.rst (l.filterMap accessOf) s.env) (hans : Answered s.cfg.regs s.rst l s.env)
    (hkept : (t.cfg, t.rst) = (s.cfg, s.rst)) : IrqRun 1 s t l (Proofs.block t) := by
  simp only [Prod.mk.injEq] at hkept
  exact ⟨ht, hout, henv, hans, rfl, hkept.1, hkept.2⟩

/-- A step without a transfer. -/
theorem quiet {s t : State} (ht : irqStep s = t) (hkept : (t.cfg, t.rst, t.env, t.out) = (s.cfg, s.rst, s.env, s.out)) :
    IrqRun 1 s t [] (Proofs.block t) := by
  simp only [Prod.mk.injEq] at hkept
  obtain ⟨hcfg, hrst, henv, hout⟩ := hkept
  exact ⟨ht, ⟨[], hout, rfl⟩, henv, trivial, rfl, hcfg, hrst⟩

/-- Runs one after the other. -/
theorem trans {j k : Nat} {s t u : State} {l m : List Emitted} {b c : State} (h : IrqRun j s t l b)
    (h' : IrqRun k t u m c) : IrqRun (j + k) s u (l ++ m) c where
  runs := by rw [← List.replicate_append_replicate, runTurns_append, h.runs, h'.runs]
  putOut := putOut_trans h.putOut h'.putOut
  env := by rw [h'.env, h.cfg, h.rst, h.env, List.filterMap_append, accesses_append]
  answered := by
    rw [answered_append, ← h.env, ← h.cfg, ← h.rst]
    exact ⟨h.cfg ▸ h.rst ▸ h.answered, h'.answered⟩
  block := h'.block
  cfg := h'.cfg.trans h.cfg
  rst := h'.rst.trans h.rst

/-- A run with its steps counted another way. -/
theorem steps_eq {j k : Nat} {s t : State} {l : List Emitted} {b : State} (h : IrqRun j s t l b) (hk : j = k) :
    IrqRun k s t l b := hk ▸ h

/-- A run with its block written another way. -/
theorem block_eq {k : Nat} {s t : State} {l : List Emitted} {b c : State} (h : IrqRun k s t l b) (hb : b = c) :
    IrqRun k s t l c := hb ▸ h

/-- A run with its trace written another way. -/
theorem trace_eq {k : Nat} {s t : State} {l m : List Emitted} {b : State} (h : IrqRun k s t l b) (hl : l = m) :
    IrqRun k s t m b := hl ▸ h

end IrqRun

/-! ### The re-arm -/

section
variable {at_ : RearmStep → IUpc} {s b : State}

/-- v1 and v2: the header mode is made explicit where it is not (R250 c6, R252 d2). -/
theorem rearm_header (hat : ∀ k s, s.iupc = at_ k → irqStep s = stepRearm at_ k s) (hb : block s = b)
    (hs : b.iupc = at_ .v1) :
    ∃ t c, IrqRun (1 + if b.hdr = .explicit then 0 else 1) s t
      (if b.hdr = .explicit then []
        else [iRd b.cfg.regs.modemConfig1 c, iWr b.cfg.regs.modemConfig1 (mergeField c b.cfg.implicitMask 0x00)])
      { b with
        iupc := at_ .v4, hdr := .explicit
        ictx := { b.ictx with
          it := if b.hdr = .explicit then b.ictx.it else c
          im := if b.hdr = .explicit then b.ictx.im else mergeField c b.cfg.implicitMask 0x00 } } := by
  subst hb
  have hv1 : irqStep s = stepRearm at_ .v1 s := hat _ _ hs
  by_cases hdr : (block s).hdr = .explicit
  · simp only [if_pos hdr]
    have hstep : irqStep s = { s with iupc := at_ .v4 } := hv1.trans (if_pos hdr)
    refine ⟨_, 0, (IrqRun.quiet hstep rfl).block_eq ?_⟩
    rw [← hdr]
    rfl
  · simp only [if_neg hdr]
    have hstep : irqStep s =
        { irqRead s.cfg.regs.modemConfig1 { s with hdr := .explicit } with iupc := at_ .v2 } := hv1.trans (if_neg hdr)
    exact ⟨_, captured s.cfg.regs.modemConfig1 s,
      (IrqRun.single (l := [_]) hstep ⟨[_], rfl, rfl⟩ rfl ⟨rfl, trivial⟩ rfl).trans
        (IrqRun.single (l := [_]) (hat .v2 _ rfl) ⟨[_], rfl, rfl⟩ rfl trivial rfl)⟩

/-- v4 and v5: DIO0 is routed only where a callback is registered. -/
theorem rearm_attach (hat : ∀ k s, s.iupc = at_ k → irqStep s = stepRearm at_ k s) (hb : block s = b)
    (hs : b.iupc = at_ .v4) :
    ∃ t, IrqRun (1 + if b.rxcb then 1 else 0) s t
      (if b.rxcb then [iWr b.cfg.regs.dioMapping1 b.cfg.dio0MapRxDone] else [])
      { b with iupc := at_ .v6, armed := if b.rxcb then .rxDone else .none } := by
  subst hb
  have hv4 : irqStep s = { armReceive s with iupc := if s.rxcb then at_ .v5 else at_ .v6 } :=
    hat .v4 s hs
  have hrx : (block s).rxcb = s.rxcb := rfl
  rw [hrx]
  by_cases h : s.rxcb = true
  · simp only [if_pos h] at hv4 ⊢
    refine ⟨_, (IrqRun.quiet hv4 rfl).trans (IrqRun.single (l := [_]) (hat .v5 _ rfl) ⟨[_], rfl, rfl⟩ rfl trivial rfl)
      |>.block_eq ?_⟩
    simp only [stepRearm, armReceive, if_pos h]
    rfl
  · simp only [if_neg h] at hv4 ⊢
    refine ⟨_, (IrqRun.quiet hv4 rfl).block_eq ?_⟩
    simp only [armReceive, if_neg h]
    rfl

/-- The re-arm: reception in explicit-header mode (R250 c6, R252 d2). -/
theorem rearm (hat : ∀ k s, s.iupc = at_ k → irqStep s = stepRearm at_ k s) (hb : block s = b) (hs : b.iupc = at_ .v1) :
    ∃ t c, IrqRun (3 + (if b.hdr = .explicit then 0 else 1) + (if b.rxcb then 1 else 0)) s t
      ((if b.hdr = .explicit then []
        else [iRd b.cfg.regs.modemConfig1 c, iWr b.cfg.regs.modemConfig1 (mergeField c b.cfg.implicitMask 0x00)]) ++
       (if b.rxcb then [iWr b.cfg.regs.dioMapping1 b.cfg.dio0MapRxDone] else []) ++
       [iWr b.cfg.regs.opMode (b.cfg.opmodeLongRange ||| b.cfg.opmodeRxCont)])
      { b with
        iupc := .idle, hdr := .explicit, armed := if b.rxcb then .rxDone else .none, mode := .rxContinuous
        ictx := { b.ictx with
          it := if b.hdr = .explicit then b.ictx.it else c
          im := if b.hdr = .explicit then b.ictx.im else mergeField c b.cfg.implicitMask 0x00 } } ∧
      t.cs = .high := by
  obtain ⟨s1, c, h1⟩ := rearm_header hat hb hs
  obtain ⟨s2, h2⟩ := rearm_attach hat h1.block rfl
  have hs2 : s2.iupc = at_ .v6 := (congrArg State.iupc h2.block :)
  have hcfg : s2.cfg = b.cfg := (congrArg State.cfg h2.block :)
  have h3 := IrqRun.single (l := [_]) (hat .v6 s2 hs2) ⟨[_], rfl, rfl⟩ rfl trivial rfl
  refine ⟨_, c, (h1.trans (h2.trans h3)).steps_eq ?_ |>.trace_eq ?_ |>.block_eq ?_, rfl⟩
  · dsimp only; omega
  · rw [hcfg, List.append_assoc]
    rfl
  · have hb2 : block (stepRearm at_ .v6 s2) = { block s2 with iupc := .idle, mode := .rxContinuous } := rfl
    rw [hb2, h2.block]

end

/-! ### Entry: the lock and the flags -/

/-- The first stands of a service (R246, R247, R251): `acquire LOCK`, the read of the flags, their clearing, and the stand
after them. -/
structure EntryStands (a1 a2 a3 a4 : IUpc) : Prop where
  acquires : ∀ s, s.iupc = a1 → irqStep s = irqAcquire a2 s
  reads : ∀ s, s.iupc = a2 → irqStep s = { readFlags s with iupc := a3 }
  clears : ∀ s, s.iupc = a3 → irqStep s = { clearFlags s with iupc := a4 }

theorem entryStands_rx : EntryStands (.isrRx .r1) (.isrRx .r2) (.isrRx .r3) (.isrRx .r4) :=
  ⟨fun s hs => by simp only [irqStep, hs]; rfl, fun s hs => by simp only [irqStep, hs]; rfl,
    fun s hs => by simp only [irqStep, hs]; rfl⟩

theorem entryStands_tx : EntryStands (.isrTx .t1) (.isrTx .t2) (.isrTx .t3) (.isrTx .t4) :=
  ⟨fun s hs => by simp only [irqStep, hs]; rfl, fun s hs => by simp only [irqStep, hs]; rfl,
    fun s hs => by simp only [irqStep, hs]; rfl⟩

/-- A service with the lock free takes it, reads the flags and writes them back. -/
theorem run_entry {a1 a2 a3 a4 : IUpc} (hat : EntryStands a1 a2 a3 a4) {s : State} {f : Byte} (hs : s.iupc = a1)
    (hfree : s.lock = .free) (hf : captured s.cfg.regs.irqFlags s = f) :
    ∃ t, IrqRun 3 s t [iRd s.cfg.regs.irqFlags f, iWr s.cfg.regs.irqFlags f]
      { block s with iupc := a4, lock := .heldByIrq, ictx := { s.ictx with f := f, it := f } } := by
  subst hf
  have hacquire : irqStep s = { s with lock := .heldByIrq, iupc := a2 } := (hat.acquires s hs).trans (if_pos hfree)
  exact ⟨_, (IrqRun.quiet hacquire rfl).trans
    ((IrqRun.single (l := [_]) (hat.reads _ rfl) ⟨[_], rfl, rfl⟩ rfl ⟨rfl, trivial⟩ rfl).trans
      (IrqRun.single (l := [_]) (hat.clears _ rfl) ⟨[_], rfl, rfl⟩ rfl trivial rfl))⟩

/-! ### Under any target, with its answers laid down -/

/-- A target that is not the reference target answers by draws (R74). -/
theorem live_of_arbitrary {s : State} (h : s.env.kind = .arbitrary) : targetLive s.rst s.env = false := by
  simp [targetLive, h]

theorem captured_laid {s : State} {x : Byte} {more : List Byte} (hl : targetLive s.rst s.env = false)
    (he : s.env.answers = x :: more) (a : RegNum) : captured a s = x := by
  simp [captured, targetByte, hl, drawnByte, he]

/-- A run with as many transfers as bytes laid down leaves the rest of them. -/
theorem IrqRun.env_laid {k : Nat} {s t : State} {l : List Emitted} {b : State} {used more : List Byte}
    (h : IrqRun k s t l b) (hl : targetLive s.rst s.env = false) (he : s.env.answers = used ++ more)
    (hlen : (l.filterMap accessOf).length = used.length) : t.env = { s.env with answers := more } :=
  h.env.trans (accesses_laid _ hl he hlen)

/-! ### Anomalies -/

/-- A service that finds an anomaly in the flags reports it and ends (R247 r4 and r11, R251 t4 and t8). -/
theorem run_anomaly {a4 a5 : IUpc} {reason : AnomalyReason} {s b : State} (hb : block s = b) (hs : b.iupc = a4)
    (hfinds : irqStep s = { s with iupc := a5 }) (hraises : ∀ u, u.iupc = a5 → irqStep u = raiseAnomaly reason u) :
    ∃ t, IrqRun 2 s t [.diag ⟨b.cfg.statuses.interruptAnomaly, reasonCode reason, b.ictx.f⟩]
      { b with iupc := .idle, lock := .free } := by
  subst hb
  exact ⟨_, (IrqRun.quiet hfinds rfl).trans
    (IrqRun.single (l := [_]) (hraises _ rfl) ⟨[_], rfl, rfl⟩ rfl trivial rfl)⟩

/-- An anomalous service from its entry, whatever the target answers. -/
theorem run_anomalous {a1 a2 a3 a4 a5 : IUpc} (hat : EntryStands a1 a2 a3 a4) {s : State} {f x : Byte} {more : List Byte}
    {reason : AnomalyReason} (hs : s.iupc = a1) (hfree : s.lock = .free) (hkind : s.env.kind = .arbitrary)
    (hans : s.env.answers = [f, x] ++ more)
    (hfinds : ∀ u, u.iupc = a4 → u.cfg = s.cfg → u.ictx.f = f → u.rxcb = s.rxcb → u.txcb = s.txcb →
      irqStep u = { u with iupc := a5 })
    (hraises : ∀ u, u.iupc = a5 → irqStep u = raiseAnomaly reason u) :
    ∃ t, t = runTurns (List.replicate 5 .irq) s ∧
      PutOut s t [iRd s.cfg.regs.irqFlags f, iWr s.cfg.regs.irqFlags f,
        .diag ⟨s.cfg.statuses.interruptAnomaly, reasonCode reason, f⟩] ∧
      BlockIs t { s with iupc := .idle, ictx := { s.ictx with f := f, it := f } } ∧
      t.env = { s.env with answers := more } := by
  have hl := live_of_arbitrary hkind
  obtain ⟨s1, h1⟩ := run_entry hat hs hfree (captured_laid hl hans _)
  have kept {α : Type} (g : State → α) : g (block s1) = g _ := congrArg g h1.block
  obtain ⟨t, h2⟩ := run_anomaly (reason := reason) h1.block rfl
    (hfinds s1 (kept State.iupc) (kept State.cfg) (kept fun u => u.ictx.f) (kept State.rxcb) (kept State.txcb)) hraises
  have h := h1.trans h2
  refine ⟨t, h.runs.symm, h.putOut, ?_, h.env_laid hl hans rfl⟩
  rw [blockIs_iff, h.block, ← hfree]
  rfl

/-- The test r4 makes of the flags. -/
theorem irqStep_r4 {u : State} {reason : AnomalyReason} (hu : u.iupc = .isrRx .r4)
    (h : rxAnomaly u.cfg u.ictx.f u.rxcb = some reason) : irqStep u = { u with iupc := .isrRx (.r11 reason) } := by
  simp only [irqStep, hu, stepIsrRx, h]

/-- The test t4 makes of the flags. -/
theorem irqStep_t4 {u : State} {reason : AnomalyReason} (hu : u.iupc = .isrTx .t4)
    (h : txAnomaly u.cfg u.ictx.f u.txcb = some reason) : irqStep u = { u with iupc := .isrTx (.t8 reason) } := by
  simp only [irqStep, hu, stepIsrTx, h]

/-- Settles O51: the reason is the one the test of the flags finds, in either service. -/
theorem anomalousServiceReports : Obligations.AnomalousServiceReports := by
  intro s f x more reason hfree hkind hans h
  obtain ⟨hs, hreason⟩ | ⟨hs, hreason⟩ := h
  · have hfound : ∃ v, reason = reasonCode v ∧ rxAnomaly s.cfg f s.rxcb = some v := by
      obtain ⟨rfl, hflag⟩ | ⟨rfl, hflag, hbad⟩ | ⟨rfl, hflag, hbad, hcb⟩ := hreason
      · exact ⟨.flagAbsent, rfl, by simp [rxAnomaly, hflag]⟩
      · exact ⟨.badReception, rfl, by simp [rxAnomaly, hflag, hbad]⟩
      · exact ⟨.noCallback, rfl, by simp [rxAnomaly, hflag, hbad, hcb]⟩
    obtain ⟨v, rfl, hv⟩ := hfound
    exact run_anomalous entryStands_rx hs hfree hkind hans
      (fun u hu hcfg hf hrx _ => irqStep_r4 hu (by rw [hcfg, hf, hrx, hv]))
      (fun u hu => by simp only [irqStep, hu, stepIsrRx])
  · have hfound : ∃ v, reason = reasonCode v ∧ txAnomaly s.cfg f s.txcb = some v := by
      obtain ⟨rfl, hflag⟩ | ⟨rfl, hflag, hcb⟩ := hreason
      · exact ⟨.flagAbsent, rfl, by simp [txAnomaly, hflag]⟩
      · exact ⟨.noCallback, rfl, by simp [txAnomaly, hflag, hcb]⟩
    obtain ⟨v, rfl, hv⟩ := hfound
    exact run_anomalous entryStands_tx hs hfree hkind hans
      (fun u hu hcfg hf _ htx => irqStep_t4 hu (by rw [hcfg, hf, htx, hv]))
      (fun u hu => by simp only [irqStep, hu, stepIsrTx])

/-! ### A transmission completed -/

/-- t4 to t7 and d1 of a genuine transmit-done (R251, R252): the handler is detached under the lock, and TXDONE set. -/
theorem run_transmitDone {s b : State} (hb : block s = b) (hs : b.iupc = .isrTx .t4)
    (hgenuine : txAnomaly b.cfg b.ictx.f b.txcb = none) :
    ∃ t, IrqRun 5 s t [] { b with iupc := .isrTx (.d2 .v1), armed := .none, lock := .free, txDone := true } := by
  subst hb
  replace hs : s.iupc = .isrTx .t4 := hs
  have hgenuine' : txAnomaly s.cfg s.ictx.f s.txcb = none := hgenuine
  have ht4 : irqStep s = { s with iupc := .isrTx .t5 } := by simp only [irqStep, hs, stepIsrTx, hgenuine']
  exact ⟨_, (IrqRun.quiet ht4 rfl).trans ((IrqRun.quiet rfl rfl).trans ((IrqRun.quiet rfl rfl).trans
    ((IrqRun.quiet rfl rfl).trans (IrqRun.quiet rfl rfl))))⟩

theorem rearmStands_rx (k : RearmStep) (s : State) (hs : s.iupc = .isrRx (.c6 k)) :
    irqStep s = stepRearm (fun k => .isrRx (.c6 k)) k s := by
  simp only [irqStep, hs, stepIsrRx]

theorem rearmStands_tx (k : RearmStep) (s : State) (hs : s.iupc = .isrTx (.d2 k)) :
    irqStep s = stepRearm (fun k => .isrTx (.d2 k)) k s := by
  simp only [irqStep, hs, stepIsrTx]

/-- What ISR_TX puts out on a genuine transmit-done, `f` the flags and `c` the byte of the re-arm's read. -/
def isrTxTrace (f c : Byte) (s : State) : List Emitted :=
  [iRd s.cfg.regs.irqFlags f, iWr s.cfg.regs.irqFlags f] ++
    (if s.hdr = .explicit then []
      else [iRd s.cfg.regs.modemConfig1 c, iWr s.cfg.regs.modemConfig1 (mergeField c s.cfg.implicitMask 0x00)]) ++
    (if s.rxcb then [iWr s.cfg.regs.dioMapping1 s.cfg.dio0MapRxDone] else []) ++
    [iWr s.cfg.regs.opMode (s.cfg.opmodeLongRange ||| s.cfg.opmodeRxCont)]

/-- How ISR_TX leaves the block on a genuine transmit-done. -/
def isrTxDone (f c : Byte) (s : State) : State :=
  { s with
    iupc := .idle, txDone := true, hdr := .explicit, armed := if s.rxcb then .rxDone else .none
    mode := .rxContinuous
    ictx := { s.ictx with
      f := f
      it := if s.hdr = .explicit then f else c
      im := if s.hdr = .explicit then s.ictx.im else mergeField c s.cfg.implicitMask 0x00 } }

/-- ISR_TX on a genuine transmit-done, from its entry with the lock free to its end. -/
theorem run_isrTx {s : State} {f : Byte} (hs : s.iupc = .isrTx .t1) (hfree : s.lock = .free)
    (hf : captured s.cfg.regs.irqFlags s = f) (hgenuine : txAnomaly s.cfg f s.txcb = none) :
    ∃ t c, IrqRun (11 + (if s.hdr = .explicit then 0 else 1) + (if s.rxcb then 1 else 0)) s t (isrTxTrace f c s)
      (block (isrTxDone f c s)) ∧ t.cs = .high := by
  obtain ⟨s1, h1⟩ := run_entry entryStands_tx hs hfree hf
  obtain ⟨s2, h2⟩ := run_transmitDone h1.block rfl hgenuine
  obtain ⟨t, c, h3, hcs⟩ := rearm (at_ := fun k => .isrTx (.d2 k)) rearmStands_tx h2.block rfl
  refine ⟨t, c, (h1.trans (h2.trans h3)).steps_eq ?_ |>.trace_eq ?_ |>.block_eq ?_, hcs⟩
  · change 3 + (5 + (3 + (if s.hdr = .explicit then 0 else 1) + (if s.rxcb then 1 else 0))) = _
    omega
  · simp only [isrTxTrace, List.append_assoc, List.nil_append]
    rfl
  · rw [← hfree]
    rfl

/-- The byte of the re-arm's read is seen only where the tracked header mode is not explicit. -/
theorem isrTx_congr {s : State} {f c d : Byte} (h : s.hdr = .explicit ∨ c = d) :
    isrTxTrace f c s = isrTxTrace f d s ∧ isrTxDone f c s = isrTxDone f d s := by
  obtain hdr | rfl := h
  · simp [isrTxTrace, isrTxDone, hdr]
  · exact ⟨rfl, rfl⟩

/-- The byte read after a read and a write is the third one laid down. -/
theorem answered_third {r : RegMap} {rst : Pin} {e : Env} {a b : RegNum} {f v c x d : Byte} {more : List Byte}
    {rest : List Emitted} (hl : targetLive rst e = false) (he : e.answers = f :: x :: d :: more)
    (h : Answered r rst (iRd a f :: iWr a v :: iRd b c :: rest) e) : c = d := by
  have h1 := (answered_rd_laid hl he h).2
  have h2 := answered_wr_laid (e := { e with answers := x :: d :: more }) hl rfl h1
  exact (answered_rd_laid (e := { e with answers := d :: more }) hl rfl h2).1

/-- Settles O52: the run of ISR_TX, with the bytes it reads laid down; and the step t5. -/
theorem transmitServiceSetsDone : Obligations.TransmitServiceSetsDone := by
  refine ⟨?service, fun s hs => ?step⟩
  case service =>
    intro s f x c draws more hs hfree htxcb hflag hkind hans hlen hc
    have hl := live_of_arbitrary hkind
    obtain ⟨t, c', h, -⟩ := run_isrTx hs hfree (captured_laid hl (by rw [hans]; rfl) _)
      (by simp [txAnomaly, hflag, htxcb] : txAnomaly s.cfg f s.txcb = none)
    have henv : t.env = { s.env with answers := more } := by
      refine h.env_laid hl hans ?_
      rw [List.length_append, hlen]
      unfold isrTxTrace
      split_ifs <;> rfl
    have hbyte : s.hdr = .explicit ∨ c' = c := by
      by_cases hdr : s.hdr = .explicit
      · exact .inl hdr
      · rw [if_neg hdr] at hlen
        obtain ⟨d, draws, rfl⟩ := List.exists_cons_of_length_pos (l := draws) (by omega)
        have hanswered := h.answered
        rw [isrTxTrace, if_neg hdr] at hanswered
        exact .inr ((answered_third hl hans hanswered).trans hc.symm)
    obtain ⟨htrace, hdone⟩ := isrTx_congr (f := f) hbyte
    exact ⟨t, h.runs.symm, (htrace ▸ h.putOut : PutOut s t (isrTxTrace f c s)),
      by rw [blockIs_iff, h.block, hdone]; rfl, henv⟩
  case step =>
    have hstep : turn .irq s = { s with armed := .none, iupc := .isrTx .t6 } := by
      simp only [turn, irqStep, hs, stepIsrTx]
    exact ⟨by rw [hstep], hstep⟩

end Sys2Proof.Proofs
end

section
/-!
The receive service (60_exceptions.md R247, R250) from its entry: the raw payload is read under the lock, and the callback
stores or discards it; then reception is re-armed.
-/
namespace Sys2Proof.Proofs
open Sys2Proof.Machine

/-! ### The loop of r8 -/

theorem IrqRun.refl (s : State) : IrqRun 0 s s [] (Proofs.block s) := ⟨rfl, ⟨[], rfl, rfl⟩, rfl, trivial, rfl, rfl, rfl⟩

/-- A byte set in a list is the first of those that follow what stands before it. -/
theorem take_set_append (l : List Byte) (v : Byte) {i : Nat} (hi : i < l.length) (raw : List Byte) (m : Nat) :
    (l.set i v).take (i + 1) ++ raw ++ (l.set i v).drop (i + 1 + m) =
      l.take i ++ (v :: raw) ++ l.drop (i + (m + 1)) := by
  have htake : (l.set i v).take (i + 1) = l.take i ++ [v] := by
    rw [List.take_succ_eq_append_getElem (by simpa using hi), List.getElem_set_self, List.take_set_of_le le_rfl]
  have hdrop : (l.set i v).drop (i + 1 + m) = l.drop (i + (m + 1)) := by
    rw [List.drop_set_of_lt (by omega)]
    congr 1
    omega
  rw [htake, hdrop]
  simp

/-- The loop of r8 from ICNT to N: the bytes it reads stand in RXBUF from ICNT on. -/
theorem run_readLoop (m : Nat) {s : State} (hs : s.iupc = .isrRx (rxNext s))
    (hm : s.ictx.icnt.toNat + m = s.ictx.n.toNat) (hlen : s.ictx.n.toNat ≤ s.rxbuf.length) :
    ∃ t raw, raw.length = m ∧ IrqRun m s t (raw.map (iRd s.cfg.regs.fifo))
      { block s with
        iupc := .isrRx .r9
        rxbuf := s.rxbuf.take s.ictx.icnt.toNat ++ raw ++ s.rxbuf.drop (s.ictx.icnt.toNat + m)
        ictx := { s.ictx with it := raw.getLastD s.ictx.it, icnt := s.ictx.n } } := by
  induction m generalizing s with
  | zero =>
    have hcnt : s.ictx.icnt = s.ictx.n := BitVec.eq_of_toNat_eq hm
    have hnext : rxNext s = .r9 := if_neg (by rw [hcnt]; exact Nat.lt_irrefl _)
    refine ⟨s, [], rfl, (IrqRun.refl s).block_eq ?_⟩
    rw [← hcnt, ← hnext, ← hs, List.append_nil, Nat.add_zero, List.take_append_drop]
    rfl
  | succ m ih =>
    have hlt : s.ictx.icnt.toNat < s.ictx.n.toNat := by omega
    have hnext : rxNext s = .r8 := if_pos hlt
    rw [hnext] at hs
    have hstep : irqStep s = { readRxByte s with iupc := .isrRx (rxNext (readRxByte s)) } := by
      simp only [irqStep, hs]; rfl
    have hcnt : (readRxByte s).ictx.icnt.toNat = s.ictx.icnt.toNat + 1 := by
      have := s.ictx.n.isLt
      change (s.ictx.icnt + 1).toNat = _
      bv_omega
    obtain ⟨t, raw, hraw, hrun⟩ := ih (s := { readRxByte s with iupc := .isrRx (rxNext (readRxByte s)) }) rfl
      (by dsimp only; rw [hcnt, Nat.add_assoc, Nat.add_comm 1]; exact hm) (by simpa [readRxByte] using hlen)
    have hbyte := IrqRun.single (l := [iRd s.cfg.regs.fifo (captured s.cfg.regs.fifo s)]) hstep ⟨[_], rfl, rfl⟩ rfl
      ⟨rfl, trivial⟩ rfl
    refine ⟨t, captured s.cfg.regs.fifo s :: raw, by rw [List.length_cons, hraw],
      (hbyte.trans hrun).steps_eq (Nat.add_comm 1 m) |>.block_eq ?_⟩
    have hbuf := take_set_append s.rxbuf (captured s.cfg.regs.fifo s) (i := s.ictx.icnt.toNat) (by omega) raw m
    dsimp only
    rw [hcnt]
    simp only [readRxByte]
    rw [hbuf, List.getLastD_cons]
    rfl

/-! ### The parts of the service -/

/-- r7 reads the length from the register of the tracked header mode (R247). -/
theorem lengthReg_eq (s : State) :
    lengthReg s = if s.hdr = .implicit then s.cfg.regs.payloadLength else s.cfg.regs.rxNbBytes := by
  unfold lengthReg
  cases s.hdr <;> rfl

/-- r4 to r6 of a valid reception: the address of the packet is copied to the pointer. -/
theorem run_address {s b : State} (hb : block s = b) (hs : b.iupc = .isrRx .r4)
    (hvalid : rxAnomaly b.cfg b.ictx.f b.rxcb = none) :
    ∃ t a, IrqRun 3 s t [iRd b.cfg.regs.fifoRxCurrentAddr a, iWr b.cfg.regs.fifoAddrPtr a]
      { b with iupc := .isrRx .r7, ictx := { b.ictx with a := a, it := a } } := by
  subst hb
  replace hs : s.iupc = .isrRx .r4 := hs
  have hvalid' : rxAnomaly s.cfg s.ictx.f s.rxcb = none := hvalid
  have hr4 : irqStep s = { s with iupc := .isrRx .r5 } := by simp only [irqStep, hs, stepIsrRx, hvalid']
  have r5 : IrqRun 1 { s with iupc := .isrRx .r5 } (irqStep { s with iupc := .isrRx .r5 })
      [iRd s.cfg.regs.fifoRxCurrentAddr (captured s.cfg.regs.fifoRxCurrentAddr s)] _ :=
    .single rfl ⟨[_], rfl, rfl⟩ rfl ⟨rfl, trivial⟩ rfl
  have r6 : IrqRun 1 (irqStep { s with iupc := .isrRx .r5 }) _
      [iWr s.cfg.regs.fifoAddrPtr (captured s.cfg.regs.fifoRxCurrentAddr s)] _ :=
    .single rfl ⟨[_], rfl, rfl⟩ rfl trivial rfl
  exact ⟨_, _, (IrqRun.quiet hr4 rfl).trans (r5.trans r6)⟩

/-- r7: the length is read. -/
theorem run_length {s b : State} (hb : block s = b) (hs : b.iupc = .isrRx .r7) :
    ∃ t n, IrqRun 1 s t [iRd (lengthReg b) n]
      { b with
        iupc := .isrRx (if (0 : Byte).toNat < n.toNat then .r8 else .r9)
        ictx := { b.ictx with n := n, icnt := 0, it := n } } := by
  subst hb
  replace hs : s.iupc = .isrRx .r7 := hs
  have hstep : irqStep s = stepIsrRx .r7 s := by simp only [irqStep, hs]
  exact ⟨_, captured (lengthReg s) s, .single (l := [_]) hstep ⟨[_], rfl, rfl⟩ rfl ⟨rfl, trivial⟩ rfl⟩

/-- r4 to r7 of a valid reception. -/
theorem run_open {s b : State} (hb : block s = b) (hs : b.iupc = .isrRx .r4)
    (hvalid : rxAnomaly b.cfg b.ictx.f b.rxcb = none) :
    ∃ t a n, IrqRun 4 s t [iRd b.cfg.regs.fifoRxCurrentAddr a, iWr b.cfg.regs.fifoAddrPtr a, iRd (lengthReg b) n]
      { b with
        iupc := .isrRx (if (0 : Byte).toNat < n.toNat then .r8 else .r9)
        ictx := { b.ictx with a := a, n := n, icnt := 0, it := n } } := by
  obtain ⟨s1, a, h1⟩ := run_address hb hs hvalid
  obtain ⟨s2, n, h2⟩ := run_length h1.block rfl
  exact ⟨s2, a, n, h1.trans h2⟩

/-- r4 to r10 of a valid reception: the raw payload is read into RXBUF and the lock is released. -/
theorem run_reading {s b : State} (hb : block s = b) (hs : b.iupc = .isrRx .r4)
    (hvalid : rxAnomaly b.cfg b.ictx.f b.rxcb = none) (hlen : b.rxbuf.length = 255) :
    ∃ t a n raw, raw.length = n.toNat ∧ IrqRun (6 + n.toNat) s t
      ([iRd b.cfg.regs.fifoRxCurrentAddr a, iWr b.cfg.regs.fifoAddrPtr a, iRd (lengthReg b) n] ++
        raw.map (iRd b.cfg.regs.fifo))
      { b with
        iupc := .isrRx .c1, lock := .free, rxbuf := raw ++ b.rxbuf.drop n.toNat
        ictx := { b.ictx with a := a, n := n, icnt := n, it := raw.getLastD n } } := by
  obtain ⟨s1, a, n, h1⟩ := run_open hb hs hvalid
  have kept {α : Type} (g : State → α) : g (block s1) = g _ := congrArg g h1.block
  have hictx : s1.ictx = { b.ictx with a := a, n := n, icnt := 0, it := n } := kept State.ictx
  have hrxbuf : s1.rxbuf = b.rxbuf := kept State.rxbuf
  have hcfg : s1.cfg = b.cfg := kept State.cfg
  have hcnt : s1.ictx.icnt.toNat = 0 := by rw [hictx]; rfl
  have hn : s1.ictx.n = n := by rw [hictx]
  obtain ⟨s2, raw, hraw, h2⟩ := run_readLoop n.toNat (s := s1)
    (by rw [rxNext, hictx]; exact kept State.iupc) (by rw [hcnt, hn, Nat.zero_add])
    (by have := n.isLt; rw [hn, hrxbuf, hlen]; omega)
  have hs2 : s2.iupc = .isrRx .r9 := (congrArg State.iupc h2.block :)
  have hr9 : irqStep s2 = { releaseLock s2 with iupc := .isrRx .r10 } := by simp only [irqStep, hs2, stepIsrRx]
  have h3 := (IrqRun.quiet hr9 rfl).trans (IrqRun.quiet rfl rfl)
  refine ⟨_, a, n, raw, hraw, (h1.trans (h2.trans h3)).steps_eq (by omega) |>.trace_eq ?_ |>.block_eq ?_⟩
  · rw [hcfg]
    simp only [List.append_nil]
  · have hb2 : block (irqStep { releaseLock s2 with iupc := .isrRx .r10 }) =
        { block s2 with iupc := .isrRx .c1, lock := .free } := rfl
    have hbuf : b.rxbuf.take s1.ictx.icnt.toNat ++ raw ++ b.rxbuf.drop (s1.ictx.icnt.toNat + n.toNat) =
        raw ++ b.rxbuf.drop n.toNat := by
      rw [hcnt, Nat.zero_add, List.take_zero, List.nil_append]
    rw [hb2, h2.block, h1.block, hrxbuf, hbuf, hictx]

/-- c1 of a malformed frame (R250): the Diag event, and nothing stored. -/
theorem run_malformed {s b : State} (hb : block s = b) (hs : b.iupc = .isrRx .c1) (hshort : b.ictx.n.toNat ≤ 4) :
    ∃ t, IrqRun 1 s t [.diag { code := b.cfg.statuses.malformedFrame, reason := 0x00, data := b.ictx.n }]
      { b with iupc := .isrRx (.c6 .v1) } := by
  subst hb
  replace hs : s.iupc = .isrRx .c1 := hs
  have hc1 : irqStep s = { emitDiag .malformedFrame 0x00 s.ictx.n s with iupc := .isrRx (.c6 .v1) } := by
    simp only [irqStep, hs, stepIsrRx]
    exact if_pos hshort
  exact ⟨_, .single (l := [_]) hc1 ⟨[_], rfl, rfl⟩ rfl trivial rfl⟩

/-- c1 to c3 of a well-formed frame (R250): RSSI and SNR are read. -/
theorem run_quality {s b : State} (hb : block s = b) (hs : b.iupc = .isrRx .c1) (hlong : 4 < b.ictx.n.toNat) :
    ∃ t r q, IrqRun 3 s t [iRd b.cfg.regs.pktRssiValue r, iRd b.cfg.regs.pktSnrValue q]
      { b with iupc := .isrRx .c4, ictx := { b.ictx with it := q, rssiRaw := r, snrRaw := q } } := by
  subst hb
  replace hs : s.iupc = .isrRx .c1 := hs
  have hc1 : irqStep s = { s with iupc := .isrRx .c2 } := by
    simp only [irqStep, hs, stepIsrRx]
    exact if_neg (Nat.not_le.2 hlong)
  have c2 : IrqRun 1 { s with iupc := .isrRx .c2 } (irqStep { s with iupc := .isrRx .c2 })
      [iRd s.cfg.regs.pktRssiValue (captured s.cfg.regs.pktRssiValue s)] _ :=
    .single rfl ⟨[_], rfl, rfl⟩ rfl ⟨rfl, trivial⟩ rfl
  have c3 : IrqRun 1 (irqStep { s with iupc := .isrRx .c2 }) (irqStep (irqStep { s with iupc := .isrRx .c2 }))
      [iRd s.cfg.regs.pktSnrValue (captured s.cfg.regs.pktSnrValue (irqStep { s with iupc := .isrRx .c2 }))] _ :=
    .single rfl ⟨[_], rfl, rfl⟩ rfl ⟨rfl, trivial⟩ rfl
  exact ⟨_, _, _, (IrqRun.quiet hc1 rfl).trans (c2.trans c3)⟩

/-- c4 and c5: the slot is overwritten with the packet. -/
theorem run_slot {s b : State} (hb : block s = b) (hs : b.iupc = .isrRx .c4) :
    ∃ t, IrqRun 2 s t []
      { b with
        iupc := .isrRx (.c6 .v1)
        slot := parseFrame (b.rxbuf.take b.ictx.n.toNat) (rssiOf b.ictx.rssiRaw b.freq) b.ictx.snrRaw } := by
  subst hb
  replace hs : s.iupc = .isrRx .c4 := hs
  have hc4 : irqStep s = stepIsrRx .c4 s := by simp only [irqStep, hs]
  exact ⟨_, (IrqRun.quiet hc4 rfl).trans (IrqRun.quiet rfl rfl)⟩

/-- c1 to c5 of a well-formed frame (R250): RSSI and SNR are read, and the slot is overwritten. -/
theorem run_store {s b : State} (hb : block s = b) (hs : b.iupc = .isrRx .c1) (hlong : 4 < b.ictx.n.toNat) :
    ∃ t r q, IrqRun 5 s t [iRd b.cfg.regs.pktRssiValue r, iRd b.cfg.regs.pktSnrValue q]
      { b with
        iupc := .isrRx (.c6 .v1), slot := parseFrame (b.rxbuf.take b.ictx.n.toNat) (rssiOf r b.freq) q
        ictx := { b.ictx with it := q, rssiRaw := r, snrRaw := q } } := by
  obtain ⟨s1, r, q, h1⟩ := run_quality hb hs hlong
  obtain ⟨t, h2⟩ := run_slot h1.block rfl
  exact ⟨t, r, q, h1.trans h2⟩

/-! ### With the target's bytes laid down -/

/-- As many reads as bytes laid down return them. -/
theorem answered_reads_laid {r : RegMap} {rst : Pin} {e : Env} {c : Ctx} {a : RegNum} (vs : List Byte) {xs more : List Byte}
    {rest : List Emitted} (hl : targetLive rst e = false) (he : e.answers = xs ++ more) (hlen : vs.length = xs.length)
    (h : Answered r rst (vs.map (.rd c a) ++ rest) e) : vs = xs ∧ Answered r rst rest { e with answers := more } := by
  induction vs generalizing e xs with
  | nil =>
    obtain rfl := List.length_eq_zero_iff.1 hlen.symm
    rw [List.nil_append] at he
    rw [← he]
    exact ⟨rfl, h⟩
  | cons v vs ih =>
    cases xs with
    | nil => exact absurd hlen (Nat.succ_ne_zero _)
    | cons x xs =>
      obtain ⟨rfl, hrest⟩ := answered_rd_laid hl he h
      obtain ⟨rfl, h'⟩ := ih (e := { e with answers := xs ++ more }) hl rfl (Nat.succ.inj hlen) hrest
      exact ⟨rfl, h'⟩

/-- The bytes read up to c1 are those laid down. -/
theorem answered_reception {r : RegMap} {rst : Pin} {e : Env} {p1 p2 p3 p4 p5 p6 : RegNum} {f v w f' x a a' y n n' : Byte}
    {raw raw' later : List Byte} (hl : targetLive rst e = false) (he : e.answers = [f', x, a', y, n'] ++ (raw' ++ later))
    (h : Answered r rst ([iRd p1 f, iWr p2 v, iRd p3 a, iWr p4 w, iRd p5 n] ++ raw.map (iRd p6)) e) :
    a = a' ∧ n = n' ∧ (raw.length = raw'.length → raw = raw') := by
  have h1 := (answered_rd_laid hl he h).2
  have h2 := answered_wr_laid (e := { e with answers := [x, a', y, n'] ++ (raw' ++ later) }) hl rfl h1
  obtain ⟨ha, h3⟩ := answered_rd_laid (e := { e with answers := [a', y, n'] ++ (raw' ++ later) }) hl rfl h2
  have h4 := answered_wr_laid (e := { e with answers := [y, n'] ++ (raw' ++ later) }) hl rfl h3
  obtain ⟨hn, h5⟩ := answered_rd_laid (e := { e with answers := [n'] ++ (raw' ++ later) }) hl rfl h4
  refine ⟨ha, hn, fun hlen => ?_⟩
  rw [← List.append_nil (List.map _ raw)] at h5
  exact (answered_reads_laid (e := { e with answers := raw' ++ later }) raw hl rfl hlen h5).1

/-- How the block stands at c1, with the raw payload read (R250). -/
def reception (f a : Byte) (raw : List Byte) (s : State) : State :=
  { s with
    iupc := .isrRx .c1, rxbuf := raw ++ s.rxbuf.drop raw.length
    ictx := { s.ictx with
      f := f, a := a, n := BitVec.ofNat 8 raw.length, icnt := BitVec.ofNat 8 raw.length
      it := raw.getLastD (BitVec.ofNat 8 raw.length) } }

/-- What the service has put out at c1. -/
def receptionTrace (f a : Byte) (raw : List Byte) (s : State) : List Emitted :=
  [iRd s.cfg.regs.irqFlags f, iWr s.cfg.regs.irqFlags f, iRd s.cfg.regs.fifoRxCurrentAddr a,
    iWr s.cfg.regs.fifoAddrPtr a, iRd (lengthReg s) (BitVec.ofNat 8 raw.length)] ++ raw.map (iRd s.cfg.regs.fifo)

/-- A valid reception up to c1, with the bytes the target answers laid down (R247). -/
theorem run_reception {s : State} {f x a y : Byte} {raw later : List Byte} (hs : s.iupc = .isrRx .r1)
    (hfree : s.lock = .free) (hlen : s.rxbuf.length = 255) (hvalid : rxAnomaly s.cfg f s.rxcb = none)
    (hraw : raw.length ≤ 255) (hkind : s.env.kind = .arbitrary)
    (hans : s.env.answers = [f, x, a, y, BitVec.ofNat 8 raw.length] ++ raw ++ later) :
    ∃ t, IrqRun (9 + raw.length) s t (receptionTrace f a raw s) (block (reception f a raw s)) ∧
      t.env = { s.env with answers := later } := by
  have hl := live_of_arbitrary hkind
  rw [List.append_assoc] at hans
  obtain ⟨s1, h1⟩ := run_entry entryStands_rx hs hfree (captured_laid hl hans _)
  obtain ⟨t, a', n, raw', hraw', h2⟩ := run_reading h1.block rfl hvalid hlen
  have hn : (BitVec.ofNat 8 raw.length).toNat = raw.length := by
    rw [BitVec.toNat_ofNat, Nat.mod_eq_of_lt (by omega)]
  have h := (h1.trans h2).trace_eq (m := [iRd s.cfg.regs.irqFlags f, iWr s.cfg.regs.irqFlags f,
    iRd s.cfg.regs.fifoRxCurrentAddr a', iWr s.cfg.regs.fifoAddrPtr a', iRd (lengthReg s) n] ++
      raw'.map (iRd s.cfg.regs.fifo)) rfl
  obtain ⟨rfl, rfl, hbytes⟩ := answered_reception hl hans h.answered
  rw [hn] at hraw'
  obtain rfl := hbytes hraw'
  refine ⟨t, h.steps_eq (by omega) |>.block_eq ?_, ?_⟩
  · rw [hn, reception, hfree.symm]
    rfl
  · refine h.env_laid (used := [f, x, a', y, BitVec.ofNat 8 raw'.length] ++ raw') hl (by simpa using hans) ?_
    simp [accessOf]

/-- What the re-arm puts out with a receive callback, `c` the byte it reads. -/
def rearmTrace (c : Byte) (b : State) : List Emitted :=
  (if b.hdr = .explicit then []
    else [iRd b.cfg.regs.modemConfig1 c, iWr b.cfg.regs.modemConfig1 (mergeField c b.cfg.implicitMask 0x00)]) ++
  [iWr b.cfg.regs.dioMapping1 b.cfg.dio0MapRxDone, iWr b.cfg.regs.opMode (b.cfg.opmodeLongRange ||| b.cfg.opmodeRxCont)]

/-- How the re-arm leaves the block with a receive callback. -/
def rearmed (c : Byte) (b : State) : State :=
  { b with
    iupc := .idle, hdr := .explicit, armed := .rxDone, mode := .rxContinuous
    ictx := { b.ictx with
      it := if b.hdr = .explicit then b.ictx.it else c
      im := if b.hdr = .explicit then b.ictx.im else mergeField c b.cfg.implicitMask 0x00 } }

/-- The byte of the re-arm's read is seen only where the tracked header mode is not explicit. -/
theorem rearmed_congr {b : State} {c d : Byte} (h : b.hdr = .explicit ∨ c = d) :
    rearmTrace c b = rearmTrace d b ∧ rearmed c b = rearmed d b := by
  obtain hdr | rfl := h
  · simp [rearmTrace, rearmed, hdr]
  · exact ⟨rfl, rfl⟩

/-- The re-arm of the receive service, with the bytes the target answers laid down (R250 c6). -/
theorem run_rearm {u b : State} {c : Byte} {draws more : List Byte} (hb : block u = b) (hs : b.iupc = .isrRx (.c6 .v1))
    (hrx : b.rxcb = true) (hl : targetLive u.rst u.env = false) (hans : u.env.answers = draws ++ more)
    (hlen : draws.length = if b.hdr = .explicit then 2 else 4) (hc : c = draws.getD 0 0) :
    ∃ t, IrqRun (4 + if b.hdr = .explicit then 0 else 1) u t (rearmTrace c b) (rearmed c b) ∧
      t.cs = .high ∧ t.env = { u.env with answers := more } := by
  obtain ⟨t, d, h, hcs⟩ := rearm (at_ := fun k => .isrRx (.c6 k)) rearmStands_rx hb hs
  simp only [if_pos hrx, List.append_assoc] at h
  have hd : IrqRun (4 + if b.hdr = .explicit then 0 else 1) u t (rearmTrace d b) (rearmed d b) :=
    IrqRun.steps_eq (j := 3 + (if b.hdr = .explicit then 0 else 1) + 1) h (by omega)
  have hbyte : b.hdr = .explicit ∨ d = c := by
    by_cases hdr : b.hdr = .explicit
    · exact .inl hdr
    · rw [if_neg hdr] at hlen
      obtain ⟨v, draws, rfl⟩ := List.exists_cons_of_length_pos (l := draws) (by omega)
      have hanswered := hd.answered
      rw [rearmTrace, if_neg hdr] at hanswered
      exact .inr ((answered_rd_laid hl hans hanswered).1.trans hc.symm)
  obtain ⟨htrace, hblock⟩ := rearmed_congr hbyte
  refine ⟨t, hd.trace_eq htrace |>.block_eq hblock, hcs, hd.env_laid hl hans ?_⟩
  rw [hlen]
  unfold rearmTrace
  split_ifs <;> rfl

/-- r4 finds no anomaly in the flags of a good reception with a callback. -/
theorem rxAnomaly_eq_none {cfg : Config} {f : Byte} {rxcb : Bool} (hflag : flagSet f cfg.irqRxDone = true)
    (hgood : flagSet f (cfg.irqCrcError ||| cfg.irqRxTimeout) = false) (hrx : rxcb = true) :
    rxAnomaly cfg f rxcb = none := by
  simp [rxAnomaly, hflag, hgood, hrx]

/-- A target that answers by draws still does after a run. -/
theorem IrqRun.laid {k : Nat} {s t : State} {l : List Emitted} {b : State} {answers : List Byte} (h : IrqRun k s t l b)
    (he : t.env = { s.env with answers := answers }) (hl : targetLive s.rst s.env = false) :
    targetLive t.rst t.env = false := by
  rw [he, h.rst]
  exact hl

/-- Settles O50: the raw payload read, c1's Diag event, and the re-arm. -/
theorem malformedFrameLeavesSlot : Obligations.MalformedFrameLeavesSlot := by
  rintro s f x a y c raw draws more n hs hfree hrx hlen hflag hgood rfl hshort hkind hans hdraws hc
  have hl := live_of_arbitrary hkind
  have hn : (BitVec.ofNat 8 raw.length).toNat = raw.length := by
    rw [BitVec.toNat_ofNat, Nat.mod_eq_of_lt (by omega)]
  obtain ⟨s1, h1, e1⟩ := run_reception hs hfree hlen (rxAnomaly_eq_none hflag hgood hrx) (by omega : raw.length ≤ 255) hkind
    (hans.trans (List.append_assoc ..))
  obtain ⟨s2, h2⟩ := run_malformed h1.block rfl (by change (BitVec.ofNat 8 raw.length).toNat ≤ 4; omega)
  have hl1 := h1.laid e1 hl
  have e2 := h2.env_laid (used := []) (more := draws ++ more) hl1 (by rw [e1, List.nil_append]) rfl
  obtain ⟨t, h3, hcs, e3⟩ := run_rearm h2.block rfl hrx (h2.laid e2 hl1) (by rw [e2]) hdraws hc
  have h := h1.trans (h2.trans h3)
  refine ⟨t, (h.steps_eq ?_).runs.symm, (h.trace_eq ?_).putOut, ?_, hcs, by rw [e3, e2, e1]⟩
  · change 9 + raw.length + (1 + (4 + if s.hdr = .explicit then 0 else 1)) = _
    omega
  · rw [receptionTrace, lengthReg_eq]
    simp only [List.append_assoc]
    rfl
  · rw [blockIs_iff, h.block]
    rfl

/-- Settles O49: the raw payload read, the slot overwritten, and the re-arm. -/
theorem receiveServiceStoresPacket : Obligations.ReceiveServiceStoresPacket := by
  rintro s f x a y r q c raw draws more n hs hfree hrx hlen hflag hgood rfl hlong hshort hkind hans hdraws hc
  have hl := live_of_arbitrary hkind
  have hn : (BitVec.ofNat 8 raw.length).toNat = raw.length := by
    rw [BitVec.toNat_ofNat, Nat.mod_eq_of_lt (by omega)]
  obtain ⟨s1, h1, e1⟩ := run_reception hs hfree hlen (rxAnomaly_eq_none hflag hgood hrx) hshort hkind
    (x := x) (a := a) (y := y) (later := [r, q] ++ (draws ++ more)) (by rw [hans]; simp only [List.append_assoc])
  obtain ⟨s2, r', q', h2⟩ := run_store h1.block rfl (by change 4 < (BitVec.ofNat 8 raw.length).toNat; omega)
  have hl1 := h1.laid e1 hl
  have e2 := h2.env_laid (used := [r, q]) (more := draws ++ more) hl1 (by rw [e1]) rfl
  obtain ⟨rfl, ans2⟩ := answered_rd_laid hl1 (by rw [e1]; rfl) h2.answered
  obtain ⟨rfl, -⟩ := answered_rd_laid (e := { s1.env with answers := q :: (draws ++ more) }) hl1 rfl ans2
  obtain ⟨t, h3, hcs, e3⟩ := run_rearm h2.block rfl hrx (h2.laid e2 hl1) (by rw [e2]) hdraws hc
  have h := h1.trans (h2.trans h3)
  refine ⟨t, (h.steps_eq ?_).runs.symm, (h.trace_eq ?_).putOut, ?_, hcs, by rw [e3, e2, e1]⟩
  · change 9 + raw.length + (5 + (4 + if s.hdr = .explicit then 0 else 1)) = _
    omega
  · rw [receptionTrace, lengthReg_eq]
    simp only [List.append_assoc]
    rfl
  · have htake : (raw ++ s.rxbuf.drop raw.length).take (BitVec.ofNat 8 raw.length).toNat = raw := by
      rw [hn, List.take_left]
    have hslot : parseFrame ((reception f a raw s).rxbuf.take (BitVec.ofNat 8 raw.length).toNat) (rssiOf r' s.freq) q' =
        parseFrame raw (rssiOf r' s.freq) q' := by
      rw [reception, htake]
    rw [blockIs_iff, h.block]
    change rearmed c { block (reception f a raw s) with
      iupc := .isrRx (.c6 .v1)
      slot := parseFrame ((reception f a raw s).rxbuf.take (BitVec.ofNat 8 raw.length).toNat) (rssiOf r' s.freq) q'
      ictx := { (reception f a raw s).ictx with it := q', rssiRaw := r', snrRaw := q' } } = _
    rw [hslot]
    rfl

end Sys2Proof.Proofs
end

section
/-!
SEND_PACKET (44_packet_protocol.md R212): what its transfers leave in a live target, runs of moves laid down, and the run of
the command up to its poll loop.
-/
namespace Sys2Proof.Proofs
open Sys2Proof.Machine

/-! ### The frame in the target -/

/-- The first 256 FIFO positions, counted from 0. -/
theorem fifoAddress_ofNat {j : Nat} (h : j < 256) : fifoAddress (BitVec.ofNat 8 j) = 256 + j := by
  rw [fifoAddress, BitVec.toNat_ofNat, Nat.mod_eq_of_lt h]

/-- What a live target holds when `data` has been written to its emptied FIFO. -/
structure FrameHolds (r : RegMap) (data : List Byte) (e e' : Env) : Prop where
  wf : e'.tmem.wf = true
  length : targetReg e' r.payloadLength = BitVec.ofNat 8 data.length
  pointer : fifoPointer r e' = BitVec.ofNat 8 data.length
  kept : ∀ a, a ∉ [r.opMode, r.fifoAddrPtr, r.payloadLength].map regAddress →
    a ∉ (List.range data.length).map (fun j => 256 + j) → e'.tmem.read a = e.tmem.read a
  stored : ∀ j, j < data.length → e'.tmem.read (256 + j) = data.getD j 0

/-- The transfers that empty the FIFO (R212 s4 to s6). -/
def clearAccesses (r : RegMap) (mode : Byte) : List (RegNum × Option Byte) :=
  [(r.opMode, some mode), (r.fifoAddrPtr, some 0), (r.payloadLength, some 0)]

section
variable {c : Config} {rst : Pin} {e e' : Env} {data : List Byte}

theorem frameHolds_clear (h : c.admitted = true) (mode : Byte) (hwf : e.tmem.wf = true) (hl : targetLive rst e = true) :
    FrameHolds c.regs [] e (accesses c.regs rst (clearAccesses c.regs mode) e) := by
  have hplain : plainAccesses c.regs (clearAccesses c.regs mode) = true :=
    plainAccesses_of_admitted h _ (by simp [clearAccesses])
  have hptr : c.regs.payloadLength ≠ c.regs.fifoAddrPtr := regs_ne h 19 7 (by decide)
  obtain ⟨hwf', hreg, hkept⟩ := accesses_read (rst := rst) _ hwf hplain
  refine ⟨hwf', ?_, ?_, fun a ha _ => hkept a ?_, nofun⟩
  · rw [hreg hl]
    simp [clearAccesses, lastWrite]
  · rw [fifoPointer, hreg hl]
    simp [clearAccesses, lastWrite, hptr]
  · rintro x hx - rfl
    refine ha (List.mem_map.2 ⟨x.1, ?_, rfl⟩)
    simp only [clearAccesses, List.mem_cons, List.not_mem_nil, or_false] at hx ⊢
    obtain rfl | rfl | rfl := hx <;> simp

/-- A WRITE appends its bytes to the frame. -/
theorem FrameHolds.append (h : c.admitted = true) (hl : targetLive rst e' = true) (hf : FrameHolds c.regs data e e')
    (more : List Byte) (hlen : (data ++ more).length ≤ 256) :
    FrameHolds c.regs (data ++ more) e
      (accesses c.regs rst (writeAccesses c.regs more (BitVec.ofNat 8 (data ++ more).length)) e') := by
  have hw := writeHolds h more (BitVec.ofNat 8 (data ++ more).length) hf.wf hl
  rw [List.length_append] at hlen hw ⊢
  have hpos (j : Nat) (hj : j < more.length) :
      fifoAddress (fifoPointer c.regs e' + BitVec.ofNat 8 j) = 256 + (data.length + j) := by
    rw [hf.pointer, ← BitVec.ofNat_add, fifoAddress_ofNat (by omega)]
  refine ⟨hw.wf, by rw [hw.length, List.length_append], ?_, fun a hreg hfifo => ?_, fun j hj => ?_⟩
  · rw [hw.pointer, hf.pointer, List.length_append, BitVec.ofNat_add]
  · simp only [List.map_cons, List.map_nil, List.mem_cons, List.not_mem_nil, or_false, not_or] at hreg
    obtain ⟨hmode, hptr, hpl⟩ := hreg
    rw [List.length_append] at hfifo
    have hout (j : Nat) (hj : j < data.length + more.length) : a ≠ 256 + j := fun he =>
      hfifo (List.mem_map.2 ⟨j, List.mem_range.2 hj, he.symm⟩)
    rw [hw.kept a hptr hpl fun j hj => by rw [hpos j hj]; exact hout _ (by omega)]
    refine hf.kept a (by simp [hmode, hptr, hpl]) fun hin => ?_
    obtain ⟨j, hj, rfl⟩ := List.mem_map.1 hin
    exact hout j (by have := List.mem_range.1 hj; omega) rfl
  · rw [List.length_append] at hj
    by_cases hold : j < data.length
    · rw [hw.kept (256 + j) (by have := regAddress_lt c.regs.fifoAddrPtr; omega)
        (by have := regAddress_lt c.regs.payloadLength; omega) fun i hi => by rw [hpos i hi]; omega,
        hf.stored j hold, List.getD_append _ _ _ _ hold]
    · have hnew := hw.stored (by omega) (j - data.length) (by omega)
      rw [hpos _ (by omega), Nat.add_sub_cancel' (Nat.not_lt.1 hold)] at hnew
      rw [hnew, List.getD_append_right _ _ _ _ (Nat.not_lt.1 hold)]

end

/-! ### Runs of moves laid down -/

/-- The moves `moves` laid down take `s` to `t` while a command is in progress, with the trace `l`; the target is as the
transfers of `l` leave it, and the block is `b`. -/
structure ScriptRun (moves : List Turn) (s t : State) (l : List Emitted) (b : State) : Prop where
  runs : ∀ rest, runScript (moves ++ rest) s = runScript rest t
  putOut : PutOut s t l
  env : t.env = accesses s.cfg.regs s.rst (l.filterMap accessOf) s.env
  block : block t = b
  cfg : t.cfg = s.cfg
  rst : t.rst = s.rst

/-- A move leaves CS high once it is. -/
theorem turn_cs_high (move : Turn) {s : State} (h : s.cs = .high) : (turn move s).cs = .high := by
  by_cases hkept : (turn move s).cs = s.cs
  · exact hkept.trans h
  · exact (cs_changed hkept).1

theorem runScript_cs_high (moves : List Turn) {s : State} (h : s.cs = .high) : (runScript moves s).cs = .high := by
  induction moves generalizing s with
  | nil => exact h
  | cons move moves ih =>
    by_cases hidle : s.hupc = .idle
    · rw [runScript_idle hidle]
      exact h
    · rw [runScript_cons hidle]
      exact ih (turn_cs_high move h)

namespace ScriptRun

/-- One move that changes the target by transfers. -/
theorem single {move : Turn} {s t : State} {l : List Emitted} (hbusy : s.hupc ≠ .idle) (ht : turn move s = t)
    (hout : PutOut s t l) (henv : t.env = accesses s.cfg.regs s.rst (l.filterMap accessOf) s.env)
    (hkept : (t.cfg, t.rst) = (s.cfg, s.rst)) : ScriptRun [move] s t l (Proofs.block t) := by
  simp only [Prod.mk.injEq] at hkept
  obtain ⟨hcfg, hrst⟩ := hkept
  exact ⟨fun rest => ht ▸ runScript_cons hbusy move rest, hout, henv, rfl, hcfg, hrst⟩

/-- One step of HCTX with no service in progress. -/
theorem host {s t : State} {l : List Emitted} (hbusy : s.hupc ≠ .idle) (hidle : s.iupc = .idle) (ht : hostStep s = t)
    (hout : PutOut s t l) (henv : t.env = accesses s.cfg.regs s.rst (l.filterMap accessOf) s.env)
    (hkept : (t.cfg, t.rst) = (s.cfg, s.rst)) : ScriptRun [.host] s t l (Proofs.block t) :=
  single hbusy ((turn_host (hostBlocked_of_idle hidle)).trans ht) hout henv hkept

/-- One step of HCTX that makes no transfer and puts out nothing. -/
theorem quiet {s t : State} (hbusy : s.hupc ≠ .idle) (hidle : s.iupc = .idle) (ht : hostStep s = t)
    (hkept : (t.cfg, t.rst, t.env, t.out) = (s.cfg, s.rst, s.env, s.out)) :
    ScriptRun [.host] s t [] (Proofs.block t) := by
  simp only [Prod.mk.injEq] at hkept
  obtain ⟨hcfg, hrst, henv, hout⟩ := hkept
  exact host hbusy hidle ht ⟨[], hout, rfl⟩ henv (by rw [hcfg, hrst])

/-- No move. -/
theorem refl (s : State) : ScriptRun [] s s [] (Proofs.block s) := ⟨fun _ => rfl, ⟨[], rfl, rfl⟩, rfl, rfl, rfl, rfl⟩

/-- A run of HCTX's steps with no service in progress. -/
theorem ofHostRun {k : Nat} {s t : State} {l : List Emitted} {b : State} (h : HostRun k s t l) (hidle : s.iupc = .idle)
    (hb : Proofs.block t = b) : ScriptRun (List.replicate k .host) s t l b :=
  ⟨h.runs (hostBlocked_of_idle hidle), h.putOut, h.env, hb, h.cfg, h.rst⟩

/-- Runs one after the other. -/
theorem trans {p q : List Turn} {s t u : State} {l m : List Emitted} {b c : State} (h : ScriptRun p s t l b)
    (h' : ScriptRun q t u m c) : ScriptRun (p ++ q) s u (l ++ m) c where
  runs rest := by rw [List.append_assoc, h.runs, h'.runs]
  putOut := putOut_trans h.putOut h'.putOut
  env := by rw [h'.env, h.cfg, h.rst, h.env, List.filterMap_append, accesses_append]
  block := h'.block
  cfg := h'.cfg.trans h.cfg
  rst := h'.rst.trans h.rst

section
variable {p q : List Turn} {s t : State} {l m : List Emitted} {b c : State}

theorem moves_eq (h : ScriptRun p s t l b) (hp : p = q) : ScriptRun q s t l b := hp ▸ h

theorem block_eq (h : ScriptRun p s t l b) (hb : b = c) : ScriptRun p s t l c := hb ▸ h

theorem trace_eq (h : ScriptRun p s t l b) (hl : l = m) : ScriptRun p s t m b := hl ▸ h

/-- A run leaves CS high once it is. -/
theorem cs_high (h : ScriptRun p s t l b) (hs : s.cs = .high) : t.cs = .high := by
  have hend := runScript_cs_high (p ++ []) hs
  rwa [h.runs []] at hend

/-- A run leaves the live target live. -/
theorem live (h : ScriptRun p s t l b) (hl : Live s) : Live t := by
  rw [Live, h.rst, h.env]
  exact accesses_live _ hl

end

end ScriptRun

/-! ### The parts of SEND_PACKET -/

section
variable {src dst : Byte} {n : Nat} {s b : State}

theorem hostStep_send {k : SendStep} (hs : s.hupc = .sendPacket src dst n k) :
    hostStep s = stepSendPacket src dst n k s := by
  simp only [hostStep, hs]

/-- s1 to s3: the next sequence number, TXDONE cleared, the lock taken. -/
theorem send_acquire (hb : block s = b) (hs : b.hupc = .sendPacket src dst n .s1) (hidle : b.iupc = .idle)
    (hfree : b.lock = .free) :
    ∃ t, ScriptRun (List.replicate 3 .host) s t []
      { b with hupc := .sendPacket src dst n .s4, seq := b.seq + 1, txDone := false, lock := .heldByHost } := by
  subst hb
  replace hs : s.hupc = .sendPacket src dst n .s1 := hs
  replace hidle : s.iupc = .idle := hidle
  have s1 : ScriptRun [.host] s { s with seq := s.seq + 1, hupc := .sendPacket src dst n .s2 } [] _ :=
    .quiet (hs ▸ nofun) hidle (hostStep_send hs) rfl
  have s2 : ScriptRun [.host] { s with seq := s.seq + 1, hupc := .sendPacket src dst n .s2 }
      { s with seq := s.seq + 1, txDone := false, hupc := .sendPacket src dst n .s3 } [] _ := .quiet nofun hidle rfl rfl
  have s3 := ScriptRun.quiet (s := { s with seq := s.seq + 1, txDone := false, hupc := .sendPacket src dst n .s3 })
    (t := { s with
      seq := s.seq + 1, txDone := false, lock := .heldByHost, hupc := .sendPacket src dst n .s4 })
    nofun hidle (if_pos hfree) rfl
  exact ⟨_, s1.trans (s2.trans s3)⟩

/-- s4 to s7: Standby, the FIFO emptied, the header formed. -/
theorem send_clear (hb : block s = b) (hs : b.hupc = .sendPacket src dst n .s4) (hidle : b.iupc = .idle) :
    ∃ t, ScriptRun (List.replicate 4 .host) s t
      [hWr b.cfg.regs.opMode (b.cfg.opmodeLongRange ||| b.cfg.opmodeStdby), hWr b.cfg.regs.fifoAddrPtr 0x00,
        hWr b.cfg.regs.payloadLength 0x00]
      { b with
        hupc := .sendPacket src dst n (.s8 .w1), mode := .standby
        hctx := { b.hctx with hb := frameHeader src dst b.seq n } } ∧ t.cs = .high := by
  subst hb
  replace hs : s.hupc = .sendPacket src dst n .s4 := hs
  replace hidle : s.iupc = .idle := hidle
  have s4 := ScriptRun.host (l := [hWr s.cfg.regs.opMode _]) (hs ▸ nofun) hidle (hostStep_send hs) ⟨[_], rfl, rfl⟩ rfl rfl
  have s5 := ScriptRun.host (s := stepSendPacket src dst n .s4 s) (l := [hWr s.cfg.regs.fifoAddrPtr _]) nofun hidle rfl
    ⟨[_], rfl, rfl⟩ rfl rfl
  have s6 := ScriptRun.host (s := stepSendPacket src dst n .s5 (stepSendPacket src dst n .s4 s))
    (l := [hWr s.cfg.regs.payloadLength _]) nofun hidle rfl ⟨[_], rfl, rfl⟩ rfl rfl
  have s7 := ScriptRun.quiet (s := stepSendPacket src dst n .s6 (stepSendPacket src dst n .s5
    (stepSendPacket src dst n .s4 s))) nofun hidle rfl rfl
  have h := s4.trans (s5.trans (s6.trans s7))
  exact ⟨_, h, rfl⟩

/-- s8 and s9: a WRITE of bytes that fit. -/
theorem send_store {at_ : WriteStep → HUpc} {next : HUpc} {source : State → List Byte} {c : Byte} {data more : List Byte}
    (h : WriteStands at_ data.length source)
    (hclose : ∀ u, hostStep { u with hupc := at_ .w3 } = { writeClose u with hupc := next }) (hb : block s = b)
    (hs : b.hupc = at_ .w1) (hidle : b.iupc = .idle) (hc : captured b.cfg.regs.payloadLength s = c)
    (hdata : source s = data ++ more) (hfit : c.toNat + data.length ≤ 255) :
    ∃ t, ScriptRun (List.replicate (2 + data.length) .host) s t
      ([hRd b.cfg.regs.payloadLength c] ++ data.map (hWr b.cfg.regs.fifo) ++
        [hWr b.cfg.regs.payloadLength (c + BitVec.ofNat 8 data.length)])
      { b with
        hupc := next
        hctx := { b.hctx with
          t := c, cur := c, k := BitVec.ofNat 8 data.length, cnt := BitVec.ofNat 8 data.length } } := by
  subst hb
  have heq : { s with hupc := at_ .w1 } = s := by rw [← hs]; rfl
  obtain ⟨u, hrun, hblock⟩ := run_writeBody h (s := s) (c := c) (k := data.length) hc.symm (by omega)
    (by rw [hdata, List.length_append]; omega)
  rw [heq, hdata, List.take_left] at hrun
  have hctx : u.hctx = { s.hctx with
      t := c, cur := c, k := BitVec.ofNat 8 data.length, cnt := BitVec.ofNat 8 data.length } := congrArg State.hctx hblock
  have hcfg : u.cfg = s.cfg := hrun.cfg
  have hbody := ScriptRun.ofHostRun hrun hidle rfl
  have hlast := ScriptRun.host (s := { u with hupc := at_ .w3 }) (l := [hWr u.cfg.regs.payloadLength _]) (h.busy _)
    (hrun.iupc.trans hidle) (hclose u) ⟨[_], rfl, rfl⟩ rfl rfl
  refine ⟨_, (hbody.trans hlast).moves_eq ?_ |>.trace_eq ?_ |>.block_eq ?_⟩
  · rw [← List.replicate_one, List.replicate_append_replicate]
    congr 1
    omega
  · rw [hcfg, hctx]
    rfl
  · have hwritten : block { writeClose u with hupc := next } = { block u with hupc := next } := rfl
    rw [hwritten, hblock]
    rfl

/-- s10 and s11: the handler is attached, and DIO0 routed, only where there is a callback. -/
theorem send_attach (hb : block s = b) (hs : b.hupc = .sendPacket src dst n .s10) (hidle : b.iupc = .idle) :
    ∃ t, ScriptRun (List.replicate (1 + if b.txcb then 1 else 0) .host) s t
      (if b.txcb then [hWr b.cfg.regs.dioMapping1 b.cfg.dio0MapTxDone] else [])
      { b with hupc := .sendPacket src dst n .s12, armed := if b.txcb then .txDone else .none } := by
  subst hb
  replace hs : s.hupc = .sendPacket src dst n .s10 := hs
  replace hidle : s.iupc = .idle := hidle
  have htx : (block s).txcb = s.txcb := rfl
  have hs10 : hostStep s = { armTransmit s with hupc := .sendPacket src dst n (if s.txcb then .s11 else .s12) } :=
    hostStep_send hs
  rw [htx]
  by_cases h : s.txcb = true
  · simp only [if_pos h] at hs10 ⊢
    have s10 := ScriptRun.quiet (hs ▸ nofun) hidle hs10 rfl
    have s11 := ScriptRun.host (s := { armTransmit s with hupc := .sendPacket src dst n .s11 })
      (l := [hWr s.cfg.regs.dioMapping1 _]) nofun hidle rfl ⟨[_], rfl, rfl⟩ rfl rfl
    refine ⟨_, (s10.trans s11).block_eq ?_⟩
    simp only [armTransmit, if_pos h]
    rfl
  · simp only [if_neg h] at hs10 ⊢
    refine ⟨_, (ScriptRun.quiet (hs ▸ nofun) hidle hs10 rfl).block_eq ?_⟩
    simp only [armTransmit, if_neg h]
    rfl

/-- s12 to s14: Tx entered, the lock released, the poll count cleared. -/
theorem send_enter (hb : block s = b) (hs : b.hupc = .sendPacket src dst n .s12) (hidle : b.iupc = .idle) :
    ∃ t, ScriptRun (List.replicate 3 .host) s t [hWr b.cfg.regs.opMode (b.cfg.opmodeLongRange ||| b.cfg.opmodeTx)]
      { b with hupc := .sendPacket src dst n .s15, mode := .tx, lock := .free, pcnt := 0 } := by
  subst hb
  replace hs : s.hupc = .sendPacket src dst n .s12 := hs
  replace hidle : s.iupc = .idle := hidle
  have s12 := ScriptRun.host (l := [hWr s.cfg.regs.opMode _]) (hs ▸ nofun) hidle (hostStep_send hs) ⟨[_], rfl, rfl⟩ rfl rfl
  have s13 := ScriptRun.quiet (s := stepSendPacket src dst n .s12 s) nofun hidle rfl rfl
  have s14 := ScriptRun.quiet (s := stepSendPacket src dst n .s13 (stepSendPacket src dst n .s12 s)) nofun hidle rfl rfl
  exact ⟨_, s12.trans (s13.trans s14)⟩

end

/-! ### Up to the poll loop -/

/-- The bytes of a long operand end in what stood in TXB. -/
theorem loadBuffer_eq_append {old data : List Byte} (h : data.length ≤ 255) :
    loadBuffer old data = data ++ (old.drop data.length).take (255 - data.length) := by
  rw [loadBuffer, List.take_append, List.take_of_length_le h]

/-- A read of a live target's register. -/
theorem captured_live {s : State} {a : RegNum} (hl : Live s) (h : a ≠ s.cfg.regs.fifo) :
    captured a s = targetReg s.env a := by
  rw [captured, targetByte, if_pos hl, if_neg h]

/-- What SEND_PACKET puts out up to its poll loop, `seq` the new sequence number (R212). -/
def sendTrace (src dst seq : Byte) (payload : List Byte) (s : State) : List Emitted :=
  [hWr s.cfg.regs.opMode (s.cfg.opmodeLongRange ||| s.cfg.opmodeStdby), hWr s.cfg.regs.fifoAddrPtr 0x00,
    hWr s.cfg.regs.payloadLength 0x00] ++
  ([hRd s.cfg.regs.payloadLength 0x00] ++ (frameHeader src dst seq payload.length).map (hWr s.cfg.regs.fifo) ++
    [hWr s.cfg.regs.payloadLength 0x04]) ++
  ([hRd s.cfg.regs.payloadLength 0x04] ++ payload.map (hWr s.cfg.regs.fifo) ++
    [hWr s.cfg.regs.payloadLength (BitVec.ofNat 8 (4 + payload.length))]) ++
  ((if s.txcb then [hWr s.cfg.regs.dioMapping1 s.cfg.dio0MapTxDone] else []) ++
    [hWr s.cfg.regs.opMode (s.cfg.opmodeLongRange ||| s.cfg.opmodeTx)])

/-- How SEND_PACKET stands at its poll loop. -/
def polling (src dst : Byte) (payload : List Byte) (s : State) : State :=
  { s with
    hupc := .sendPacket src dst payload.length .s15, seq := s.seq + 1, txDone := false, mode := .tx, pcnt := 0
    lock := .free, armed := if s.txcb then .txDone else .none, txb := loadBuffer s.txb payload
    hctx := { s.hctx with
      t := 4, cur := 4, k := BitVec.ofNat 8 payload.length, cnt := BitVec.ofNat 8 payload.length
      hb := frameHeader src dst (s.seq + 1) payload.length } }

theorem storeTrace_accesses (r : RegMap) (data : List Byte) (c v : Byte) :
    ([hRd r.payloadLength c] ++ data.map (hWr r.fifo) ++ [hWr r.payloadLength v]).filterMap accessOf =
      writeAccesses r data v := by
  simp [writeAccesses, fifoWrites, List.filterMap_append, accessOf, Function.comp_def]

/-- What a live target holds at the poll loop. -/
theorem frameHolds_send {src dst seq : Byte} {payload : List Byte} {s : State} (hr : Regular s) (hl : Live s)
    (hlen : payload.length ≤ 251) :
    FrameHolds s.cfg.regs (frameHeader src dst seq payload.length ++ payload) s.env
      (accesses s.cfg.regs s.rst (writeAccesses s.cfg.regs payload (BitVec.ofNat 8 (4 + payload.length)))
        (accesses s.cfg.regs s.rst (writeAccesses s.cfg.regs (frameHeader src dst seq payload.length) 4)
          (accesses s.cfg.regs s.rst (clearAccesses s.cfg.regs (s.cfg.opmodeLongRange ||| s.cfg.opmodeStdby)) s.env))) := by
  have h1 := frameHolds_clear hr.1 (s.cfg.opmodeLongRange ||| s.cfg.opmodeStdby) hr.2 hl
  have h2 := h1.append hr.1 (accesses_live _ hl) (frameHeader src dst seq payload.length)
    (by simp [frameHeader])
  have h3 := h2.append hr.1 (accesses_live _ (accesses_live _ hl)) payload (by
    rw [List.nil_append, List.length_append]
    change 4 + payload.length ≤ 256
    omega)
  rw [List.nil_append, List.length_append] at h3
  exact h3

/-- SEND_PACKET under a live target up to its poll loop, with no service in progress and the lock free. -/
theorem run_send {src dst : Byte} {payload : List Byte} {s : State} (hidle : s.iupc = .idle) (hfree : s.lock = .free)
    (hr : Regular s) (hl : Live s) (hlen : payload.length ≤ 251) :
    ∃ t, ScriptRun (List.replicate (19 + payload.length + if s.txcb then 1 else 0) .host)
      (acceptBytes payload (.sendPacket src dst payload.length .s1) s) t (sendTrace src dst (s.seq + 1) payload s)
      (block (polling src dst payload s)) ∧ t.cs = .high := by
  have hfifo : s.cfg.regs.payloadLength ≠ s.cfg.regs.fifo := regs_ne hr.1 19 0 (by decide)
  obtain ⟨s1, h1⟩ := send_acquire (s := acceptBytes payload (.sendPacket src dst payload.length .s1) s) rfl rfl hidle hfree
  obtain ⟨s2, h2, hcs⟩ := send_clear h1.block rfl hidle
  have h12 := h1.trans h2
  have hl2 : Live s2 := h12.live hl
  have hframe2 := frameHolds_clear (rst := s.rst) hr.1 (s.cfg.opmodeLongRange ||| s.cfg.opmodeStdby) hr.2 hl
  have hpl2 : captured s.cfg.regs.payloadLength s2 = 0 := by
    rw [captured_live hl2 (by rw [h12.cfg]; exact hfifo), h12.env]
    exact hframe2.length
  have hhb : s2.hctx.hb = frameHeader src dst (s.seq + 1) payload.length ++ [] :=
    (congrArg (fun u : State => u.hctx.hb) h2.block :)
  obtain ⟨s3, h3⟩ := send_store (data := frameHeader src dst (s.seq + 1) payload.length)
    (writeStands_s8 src dst payload.length) (fun _ => rfl) h2.block rfl hidle hpl2 hhb (by change 0 + 4 ≤ 255; decide)
  have h123 := h12.trans h3
  have hl3 : Live s3 := h123.live hl
  have hpl3 : captured s.cfg.regs.payloadLength s3 = 4 := by
    rw [captured_live hl3 (by rw [h123.cfg]; exact hfifo), h3.env, h12.env, h12.cfg, h12.rst]
    exact (hframe2.append hr.1 (accesses_live _ hl) (frameHeader src dst (s.seq + 1) payload.length)
      (by simp [frameHeader])).length
  have htxb : s3.txb = payload ++ (s.txb.drop payload.length).take (255 - payload.length) :=
    (congrArg State.txb h3.block :).trans (loadBuffer_eq_append (by omega))
  obtain ⟨s4, h4⟩ := send_store (writeStands_s9 src dst payload.length) (fun _ => rfl) h3.block rfl hidle hpl3 htxb
    (by change 4 + payload.length ≤ 255; omega)
  obtain ⟨s5, h5⟩ := send_attach h4.block rfl hidle
  obtain ⟨t, h6⟩ := send_enter h5.block rfl hidle
  have h3' := h3.trace_eq (m := [hRd s.cfg.regs.payloadLength 0] ++
    (frameHeader src dst (s.seq + 1) payload.length).map (hWr s.cfg.regs.fifo) ++ [hWr s.cfg.regs.payloadLength 4]) rfl
  have hsum : (4 : Byte) + BitVec.ofNat 8 payload.length = BitVec.ofNat 8 (4 + payload.length) :=
    (BitVec.ofNat_add 4 payload.length).symm
  have h4' := h4.trace_eq (m := [hRd s.cfg.regs.payloadLength 4] ++ payload.map (hWr s.cfg.regs.fifo) ++
    [hWr s.cfg.regs.payloadLength (BitVec.ofNat 8 (4 + payload.length))]) (by rw [← hsum]; rfl)
  have h5' := h5.trace_eq (m := if s.txcb then [hWr s.cfg.regs.dioMapping1 s.cfg.dio0MapTxDone] else []) rfl
  have h6' := h6.trace_eq (m := [hWr s.cfg.regs.opMode (s.cfg.opmodeLongRange ||| s.cfg.opmodeTx)]) rfl
  have hrest := h3'.trans (h4'.trans (h5'.trans h6'))
  refine ⟨t, (h12.trans hrest).moves_eq ?_ |>.trace_eq ?_ |>.block_eq ?_, hrest.cs_high hcs⟩
  · simp only [List.replicate_append_replicate]
    congr 1
    change 3 + 4 + (2 + 4 + (2 + payload.length + (1 + (if s.txcb then 1 else 0) + 3))) = _
    omega
  · simp only [sendTrace, List.append_assoc]
    rfl
  · rfl

end Sys2Proof.Proofs
end

section
/-!
SEND_PACKET whose completion never comes (44_packet_protocol.md R212, 60_exceptions.md R270): what the target holds at
the poll loop, the ticks, and the response.
-/
namespace Sys2Proof.Proofs
open Sys2Proof.Machine

/-! ### The target at the poll loop -/

/-- What a live target holds once SEND_PACKET has entered Tx. -/
structure SentHolds (frame : List Byte) (s : State) (e : Env) : Prop where
  wf : e.tmem.wf = true
  kept : ∀ a, a ∉ (List.range frame.length).map (fun j => 256 + j) ++
    [s.cfg.regs.opMode, s.cfg.regs.fifoAddrPtr, s.cfg.regs.payloadLength].map regAddress ++
    (if s.txcb then [regAddress s.cfg.regs.dioMapping1] else []) → e.tmem.read a = s.env.tmem.read a
  stored : ∀ j, j < frame.length → e.tmem.read (256 + j) = frame.getD j 0
  length : targetReg e s.cfg.regs.payloadLength = BitVec.ofNat 8 frame.length
  mode : targetReg e s.cfg.regs.opMode = s.cfg.opmodeLongRange ||| s.cfg.opmodeTx
  routed : s.txcb = true → targetReg e s.cfg.regs.dioMapping1 = s.cfg.dio0MapTxDone

/-- The transfers that route DIO0 and enter Tx. -/
def enterAccesses (s : State) : List (RegNum × Option Byte) :=
  (if s.txcb then [(s.cfg.regs.dioMapping1, some s.cfg.dio0MapTxDone)] else []) ++
    [(s.cfg.regs.opMode, some (s.cfg.opmodeLongRange ||| s.cfg.opmodeTx))]

theorem sentHolds_enter {frame : List Byte} {s : State} {e : Env} (hadm : s.cfg.admitted = true)
    (hf : FrameHolds s.cfg.regs frame s.env e) (hl : targetLive s.rst e = true) :
    SentHolds frame s (accesses s.cfg.regs s.rst (enterAccesses s) e) := by
  have hregs (x) (hx : x ∈ enterAccesses s) :
      (s.txcb = true ∧ x.1 = s.cfg.regs.dioMapping1) ∨ x.1 = s.cfg.regs.opMode := by
    rw [enterAccesses, List.mem_append] at hx
    obtain hroute | hmode := hx
    · split at hroute
      · exact .inl ⟨‹_›, by rw [List.mem_singleton.1 hroute]⟩
      · cases hroute
    · exact .inr (by rw [List.mem_singleton.1 hmode])
  have hplain : plainAccesses s.cfg.regs (enterAccesses s) = true := plainAccesses_of_admitted hadm _ fun x hx => by
    obtain ⟨-, h⟩ | h := hregs x hx <;> simp [h]
  obtain ⟨hwf, hreg, hkept⟩ := accesses_read (rst := s.rst) _ hf.wf hplain
  have hmode : s.cfg.regs.dioMapping1 ≠ s.cfg.regs.opMode := regs_ne hadm 22 1 (by decide)
  have hpl : s.cfg.regs.payloadLength ≠ s.cfg.regs.opMode := regs_ne hadm 19 1 (by decide)
  have hdio : s.cfg.regs.dioMapping1 ≠ s.cfg.regs.payloadLength := regs_ne hadm 22 19 (by decide)
  refine ⟨hwf, fun a ha => ?_, fun j hj => ?_, ?_, ?_, fun htx => ?_⟩
  · simp only [List.mem_append, not_or] at ha
    obtain ⟨⟨hfifo, hin⟩, hroute⟩ := ha
    refine (hkept a ?_).trans (hf.kept a hin hfifo)
    rintro x hx - rfl
    obtain ⟨htx, h⟩ | h := hregs x hx
    · exact hroute (by simp [htx, h])
    · exact hin (by simp [h])
  · refine (hkept _ fun x _ _ => ?_).trans (hf.stored j hj)
    have := regAddress_lt x.1
    omega
  · rw [hreg hl, ← hf.length]
    cases htx : s.txcb <;> simp [enterAccesses, htx, lastWrite, hpl.symm, hdio]
  · rw [hreg hl]
    cases htx : s.txcb <;> simp [enterAccesses, htx, lastWrite]
  · rw [hreg hl]
    simp [enterAccesses, htx, lastWrite, hmode.symm]

theorem sendTrace_accesses (src dst seq : Byte) (payload : List Byte) (s : State) :
    (sendTrace src dst seq payload s).filterMap accessOf =
      clearAccesses s.cfg.regs (s.cfg.opmodeLongRange ||| s.cfg.opmodeStdby) ++
        writeAccesses s.cfg.regs (frameHeader src dst seq payload.length) 4 ++
        writeAccesses s.cfg.regs payload (BitVec.ofNat 8 (4 + payload.length)) ++ enterAccesses s := by
  rw [sendTrace, List.filterMap_append, List.filterMap_append, List.filterMap_append, storeTrace_accesses,
    storeTrace_accesses, enterAccesses]
  congr 1
  split <;> rfl

/-- What a live target holds at the poll loop. -/
theorem sentHolds {src dst seq : Byte} {payload : List Byte} {s : State} (hr : Regular s) (hl : Live s)
    (hlen : payload.length ≤ 251) :
    SentHolds (frameHeader src dst seq payload.length ++ payload) s
      (accesses s.cfg.regs s.rst ((sendTrace src dst seq payload s).filterMap accessOf) s.env) := by
  rw [sendTrace_accesses, accesses_append, accesses_append, accesses_append]
  exact sentHolds_enter hr.1 (frameHolds_send hr hl hlen) (accesses_live _ (accesses_live _ (accesses_live _ hl)))

/-! ### The poll loop -/

/-- Ticks in the poll loop are counted up to POLL_MAX. -/
theorem run_ticks {src dst : Byte} {n : Nat} (m : Nat) {s : State} (hs : s.hupc = .sendPacket src dst n .s15)
    (hidle : s.iupc = .idle) (hdone : s.txDone = false) (hm : s.pcnt.toNat + m = s.cfg.pollMax.toNat) :
    ∃ t, ScriptRun (List.replicate m .tick) s t [] { block s with pcnt := s.cfg.pollMax } := by
  induction m generalizing s with
  | zero =>
    have hcnt : s.pcnt = s.cfg.pollMax := BitVec.eq_of_toNat_eq hm
    exact ⟨s, (ScriptRun.refl s).block_eq (by rw [← hcnt]; rfl)⟩
  | succ m ih =>
    have hagain : pollAgain s = true := by
      simp only [pollAgain, hdone, Bool.not_false, Bool.true_and, decide_eq_true_eq]
      omega
    have htick : turn .tick s = { s with pcnt := s.pcnt + 1, hupc := .sendPacket src dst n .s15 } := by
      rw [turn_tick (hostBlocked_of_idle hidle)]
      simp only [pollTick, hs]
      exact if_pos hagain
    have hcnt : (s.pcnt + 1).toNat = s.pcnt.toNat + 1 := by
      have := s.cfg.pollMax.isLt
      bv_omega
    obtain ⟨t, h⟩ := ih (s := { s with pcnt := s.pcnt + 1, hupc := .sendPacket src dst n .s15 }) rfl hidle hdone
      (by dsimp only; omega)
    have hfirst := ScriptRun.single (l := []) (hs ▸ nofun) htick ⟨[], rfl, rfl⟩ rfl rfl
    refine ⟨t, (hfirst.trans h).moves_eq rfl |>.block_eq ?_⟩
    rw [← hs]
    rfl

/-- s15 and s16 once the polls are used up: TransmitTimeout (R212). -/
theorem run_timeout {src dst : Byte} {n : Nat} {s b : State} (hb : block s = b) (hs : b.hupc = .sendPacket src dst n .s15)
    (hidle : b.iupc = .idle) (hdone : b.txDone = false) (hm : b.pcnt = b.cfg.pollMax) :
    ∃ t, ScriptRun (List.replicate 2 .host) s t
      [.diag ⟨b.cfg.statuses.transmitTimeout, 0x00, b.pcnt⟩, .response [b.cfg.statuses.transmitTimeout]]
      { b with hupc := .idle } := by
  subst hb
  replace hs : s.hupc = .sendPacket src dst n .s15 := hs
  replace hidle : s.iupc = .idle := hidle
  replace hdone : s.txDone = false := hdone
  replace hm : s.pcnt = s.cfg.pollMax := hm
  have hover : pollAgain s = false := by simp [pollAgain, hm]
  have s15 := ScriptRun.quiet (t := { s with hupc := .sendPacket src dst n .s16 }) (hs ▸ nofun) hidle
    ((hostStep_send hs).trans (by simp [stepSendPacket, sendPoll, hover])) rfl
  have hfinish : hostStep { s with hupc := .sendPacket src dst n .s16 } =
      raiseHost .transmitTimeout s.pcnt { s with hupc := .sendPacket src dst n .s16 } :=
    if_neg (by rw [hdone]; exact nofun)
  have s16 := ScriptRun.host (s := { s with hupc := .sendPacket src dst n .s16 })
    (l := [.diag _, .response _]) nofun hidle hfinish ⟨[_, _], rfl, rfl⟩ rfl rfl
  exact ⟨_, s15.trans s16⟩

/-! ### The command -/

/-- An admitted SEND_PACKET runs the moves laid down (R149, R212). -/
theorem exec_sendPacket {src dst : Byte} {payload : List Byte} {s : State} (hidle : s.hupc = .idle) (hdrv : s.drv = .ready)
    (hlen : payload.length ≤ 251) : exec (.sendPacket src dst payload) s =
      .next (runScript s.env.script (acceptBytes payload (.sendPacket src dst payload.length .s1) s)) := by
  have hframe : needsFrame payload.length s = none := by
    simp only [needsFrame, needsDriver_ready hdrv]
    exact if_pos hlen
  rw [exec, execSendPacket, hframe, runCommand_admitted hidle]

/-- Settles O46: the run up to the poll loop, POLL_MAX ticks, and s16's report. -/
theorem sendPacketTimesOut : Obligations.SendPacketTimesOut := by
  rintro src dst payload n rest s rfl hlen hhost hidle hdrv hfree hr hl hscript
  obtain ⟨s1, h1, hcs⟩ := run_send (src := src) (dst := dst) hidle hfree hr hl hlen
  have kept {α : Type} (g : State → α) : g (block s1) = g _ := congrArg g h1.block
  have hcfg : s1.cfg = s.cfg := h1.cfg
  obtain ⟨s2, h2⟩ := run_ticks s.cfg.pollMax.toNat (s := s1) (kept State.hupc) ((kept State.iupc).trans hidle)
    (kept State.txDone) (by
      have hzero : s1.pcnt = 0 := kept State.pcnt
      rw [hzero, hcfg]
      exact Nat.zero_add _)
  rw [h1.block, hcfg] at h2
  obtain ⟨t, h3⟩ := run_timeout h2.block rfl hidle rfl rfl
  have h := h1.trans (h2.trans h3)
  have hend : t.hupc = .idle := (congrArg State.hupc h3.block :)
  have hexec : exec (.sendPacket src dst payload) s = .next (setScript rest t) := by
    have hruns := h.runs rest
    rw [List.append_assoc, List.append_assoc] at hruns
    rw [exec_sendPacket hhost hdrv hlen, hscript, List.append_assoc, List.append_assoc, hruns, runScript_idle hend]
  have hsent := sentHolds (src := src) (dst := dst) (seq := s.seq + 1) hr hl hlen
  have henv : t.env = accesses s.cfg.regs s.rst ((sendTrace src dst (s.seq + 1) payload s).filterMap accessOf) s.env := by
    have hall := h.env
    rw [List.filterMap_append] at hall
    exact hall.trans (congrArg (fun l => accesses s.cfg.regs s.rst l s.env) (List.append_nil _))
  obtain ⟨hkind, hturns, -⟩ := accesses_frame (r := s.cfg.regs) (rst := s.rst)
    ((sendTrace src dst (s.seq + 1) payload s).filterMap accessOf) s.env
  refine ⟨_, hexec, ?trace, ?block, (h2.trans h3).cs_high hcs, ?kind, ?turns, rfl, fun a ha => ?frame⟩
  case trace =>
    have hout := h.putOut
    simp only [sendTrace, List.append_assoc] at hout ⊢
    exact hout
  case block =>
    rw [blockIs_iff]
    refine h3.block.trans ?_
    rw [← hhost, polling, ← hfree]
    rfl
  case kind => exact (congrArg Env.kind henv).trans hkind
  case turns => exact (congrArg Env.turns henv).trans hturns
  case frame =>
    refine (congrArg (fun e : Env => e.tmem.read a) henv).trans (hsent.kept a ?_)
    rw [List.length_append, Nat.add_comm, Nat.add_comm payload.length]
    exact ha

end Sys2Proof.Proofs
end

section
/-!
The round trip of a packet (44_packet_protocol.md R215).
-/
namespace Sys2Proof.Proofs
open Sys2Proof.Machine

/-- Settles O54: the FIFO holds the frame at the poll loop, and the receive service stores what it is given. -/
theorem packetRoundTrip : Obligations.PacketRoundTrip := by
  rintro A B src dst payload raw n f x a y r q draws more rfl hpos hlen hhost hidle hdrv hfree hr hl hscript
    hirq hlock hrx hbuf hkind hflag hgood hans hdraws
  obtain ⟨t, h, -⟩ := run_send (src := src) (dst := dst) hidle hfree hr hl hlen
  have hexec : exec (.sendPacket src dst payload) A = .next (setScript [] t) := by
    have hruns := h.runs []
    rw [List.append_nil] at hruns
    rw [exec_sendPacket hhost hdrv hlen, hscript, hruns, runScript]
  have hsent := sentHolds (src := src) (dst := dst) (seq := A.seq + 1) hr hl hlen
  refine ⟨_, hexec, fun hraw => ?_⟩
  have hcount : (frameHeader src dst (A.seq + 1) payload.length ++ payload).length = 4 + payload.length :=
    List.length_append
  have hframe : raw = frameHeader src dst (A.seq + 1) payload.length ++ payload := by
    rw [hraw]
    refine List.ext_getElem (by rw [List.length_map, List.length_range, hcount]) fun j hj hj' => ?_
    rw [List.getElem_map, List.getElem_range]
    refine (congrArg (fun e : Env => e.tmem.read (256 + j)) h.env).trans ?_
    exact (hsent.stored j hj').trans (List.getD_eq_getElem _ _ hj')
  obtain ⟨u, hu, -, hblock, -⟩ := receiveServiceStoresPacket B f x a y r q _ raw draws more (4 + payload.length) hirq hlock
    hrx hbuf hflag hgood (by rw [hframe, hcount]) (by omega) (by omega) hkind hans hdraws rfl
  have kept {α : Type} (g : State → α) := congrArg g hblock
  subst hframe
  have hsteps : 18 + (4 + payload.length) = 22 + payload.length := by omega
  have hsize : 4 + payload.length - 4 = payload.length := Nat.add_sub_cancel_left ..
  rw [hsteps] at hu
  refine ⟨u, hu, kept State.iupc, kept fun w => w.slot.valid, kept fun w => w.slot.srcAddress,
    kept fun w => w.slot.dstAddress, kept fun w => w.slot.sequenceNumber, kept fun w => w.slot.payloadLength,
    (kept fun w => w.slot.count).trans (congrArg (BitVec.ofNat 8) hsize), kept fun w => w.slot.payload⟩

end Sys2Proof.Proofs
end

section
/-!
SEND_PACKET completed (44_packet_protocol.md R212, 20_memory.md R84, 60_exceptions.md R251): TxComplete, the dispatch, ISR_TX
and the response.
-/
namespace Sys2Proof.Proofs
open Sys2Proof.Machine

/-! ### ICTX's steps while a command is in progress -/

theorem stepRearm_hupc (at_ : RearmStep → IUpc) (k : RearmStep) (s : State) : (stepRearm at_ k s).hupc = s.hupc := by
  cases k
  case v1 =>
    simp only [stepRearm]
    split <;> rfl
  all_goals rfl

theorem stepIsrRx_hupc (k : RxStep) (s : State) : (stepIsrRx k s).hupc = s.hupc := by
  cases k
  case r1 =>
    simp only [stepIsrRx, irqAcquire]
    split <;> rfl
  case r4 =>
    simp only [stepIsrRx]
    split <;> rfl
  case c1 =>
    simp only [stepIsrRx, checkFrame]
    split <;> rfl
  case c6 => exact stepRearm_hupc ..
  all_goals rfl

theorem stepIsrTx_hupc (k : TxStep) (s : State) : (stepIsrTx k s).hupc = s.hupc := by
  cases k
  case t1 =>
    simp only [stepIsrTx, irqAcquire]
    split <;> rfl
  case t4 =>
    simp only [stepIsrTx]
    split <;> rfl
  case d2 => exact stepRearm_hupc ..
  all_goals rfl

/-- A step of ICTX leaves HUPC. -/
theorem irqStep_hupc (s : State) : (irqStep s).hupc = s.hupc := by
  cases h : s.iupc <;> simp only [irqStep, h]
  case isrRx k => exact (stepIsrRx_hupc k s).trans rfl
  case isrTx k => exact (stepIsrTx_hupc k s).trans rfl

/-- ICTX's moves in a run of moves laid down while a command is in progress. -/
theorem runScript_irqs (k : Nat) (rest : List Turn) {s : State} (h : s.hupc ≠ .idle) :
    runScript (List.replicate k .irq ++ rest) s = runScript rest (runTurns (List.replicate k .irq) s) := by
  induction k generalizing s with
  | zero => rfl
  | succ k ih =>
    rw [List.replicate_succ, List.cons_append, runScript_cons h, ih (by rw [turn, irqStep_hupc]; exact h)]
    rfl

/-- A run of ICTX's steps while a command is in progress. -/
theorem ScriptRun.ofIrqRun {k : Nat} {s t : State} {l : List Emitted} {b : State} (h : IrqRun k s t l b)
    (hbusy : s.hupc ≠ .idle) : ScriptRun (List.replicate k .irq) s t l b :=
  ⟨fun rest => by rw [runScript_irqs k rest hbusy, h.runs], h.putOut, h.env, h.block, h.cfg, h.rst⟩

/-! ### What the target keeps -/

/-- Transfers of other registers than the FIFO port keep every byte but those of the registers written. -/
theorem accesses_outside {r : RegMap} {rst : Pin} (l : List (RegNum × Option Byte)) {e : Env} (hwf : e.tmem.wf = true)
    (hl : ∀ x ∈ l, x.1 ≠ r.fifo) {b : Nat} (hb : ∀ x ∈ l, x.2.isSome → b ≠ regAddress x.1) :
    (accesses r rst l e).tmem.read b = e.tmem.read b := by
  induction l generalizing e with
  | nil => rfl
  | cons x l ih =>
    rw [List.forall_mem_cons] at hl hb
    obtain ⟨a, _ | v⟩ := x
    · have hkept : (targetAfterRead r rst e a).tmem = e.tmem := targetAfterRead_tmem hl.1
      exact (ih (e := targetAfterRead r rst e a) (by rw [hkept]; exact hwf) hl.2 hb.2).trans (by rw [hkept])
    · exact (ih (e := targetAfterWrite r rst e a v) (targetAfterWrite_wf r rst a v hwf) hl.2 hb.2).trans
        (targetAfterWrite_frame hwf hl.1 (hb.1 rfl))

/-- TxComplete with the transmit handler attached and DIO0 routed to it (R84, R244). -/
theorem txComplete_latches {s : State} (hkind : s.env.kind = .reference) (hmode : targetMode s = 3)
    (hroute : targetRouting s = 1) (harmed : s.armed = .txDone) :
    turn .txComplete s =
      { s with pendTx := true, env := { s.env with tmem := writeRegs s.env.tmem (txCompleteRegs s) } } := by
  simp [turn, txCompleteEvent, hkind, hmode, hroute, routedEdge, edgeRule, harmed]

/-- How TxComplete and the dispatch leave a block that polls. -/
def dispatched (s : State) : State :=
  { s with
    pendTx := false, iupc := .isrTx .t1, env := { s.env with tmem := writeRegs s.env.tmem (txCompleteRegs s) } }

theorem runScript_dispatched {s : State} (hbusy : s.hupc ≠ .idle) (hidle : s.iupc = .idle)
    (hkind : s.env.kind = .reference) (hmode : targetMode s = 3) (hroute : targetRouting s = 1)
    (harmed : s.armed = .txDone) (rest : List Turn) :
    runScript (.txComplete :: .dispatch true :: rest) s = runScript rest (dispatched s) := by
  rw [runScript_cons hbusy, txComplete_latches hkind hmode hroute harmed]
  refine (runScript_cons (by exact hbusy) _ _).trans ?_
  congr 1
  exact (Proofs.dispatchRule true _).2.1 hidle rfl (.inr rfl)

section
variable {s : State}

/-- TxComplete changes the flags and the mode byte alone (R84). -/
theorem dispatched_keeps (hwf : s.env.tmem.wf = true) {b : Nat} (hflags : b ≠ regAddress s.cfg.regs.irqFlags)
    (hmode : b ≠ regAddress s.cfg.regs.opMode) : (dispatched s).env.tmem.read b = s.env.tmem.read b :=
  writeRegs_read_of_notMem hwf (by simp [txCompleteRegs, hflags, hmode])

/-- TxComplete sets the TX-done flag (R84). -/
theorem dispatched_flags (hadm : s.cfg.admitted = true) (hwf : s.env.tmem.wf = true) :
    targetReg (dispatched s).env s.cfg.regs.irqFlags = targetReg s.env s.cfg.regs.irqFlags ||| 0x08 := by
  have hne : s.cfg.regs.irqFlags ≠ s.cfg.regs.opMode := regs_ne hadm 11 1 (by decide)
  exact writeRegs_read_of_mem hwf (by simp [txCompleteRegs, hne]) (s.cfg.regs.irqFlags, _) (List.mem_cons_self ..)

end

/-! ### The transmit service and the response -/

/-- The transfers of ISR_TX. -/
theorem isrTxTrace_registers {f c : Byte} {s : State} {x : RegNum × Option Byte}
    (hx : x ∈ (isrTxTrace f c s).filterMap accessOf) :
    x.1 ∈ [s.cfg.regs.irqFlags, s.cfg.regs.dioMapping1, s.cfg.regs.opMode] ∨
      (s.hdr ≠ .explicit ∧ x.1 = s.cfg.regs.modemConfig1) := by
  rw [isrTxTrace, List.filterMap_append, List.filterMap_append, List.filterMap_append] at hx
  simp only [List.mem_append] at hx
  obtain ((hflags | hheader) | hroute) | hmode := hx
  · obtain rfl | rfl := List.mem_pair.1 hflags <;> exact .inl (List.mem_cons_self ..)
  · split at hheader
    · cases hheader
    · obtain rfl | rfl := List.mem_pair.1 hheader <;> exact .inr ⟨‹_›, rfl⟩
  · split at hroute
    · obtain rfl := List.mem_singleton.1 hroute
      exact .inl (by simp)
    · cases hroute
  · obtain rfl := List.mem_singleton.1 hmode
    exact .inl (by simp)

/-- s15 and s16 once TXDONE is set: the response (R212). -/
theorem run_respond {src dst : Byte} {n : Nat} {s b : State} (hb : block s = b) (hs : b.hupc = .sendPacket src dst n .s15)
    (hidle : b.iupc = .idle) (hdone : b.txDone = true) :
    ∃ t, ScriptRun (List.replicate 2 .host) s t [.response [b.cfg.statuses.ok]] { b with hupc := .idle } := by
  subst hb
  replace hs : s.hupc = .sendPacket src dst n .s15 := hs
  replace hidle : s.iupc = .idle := hidle
  replace hdone : s.txDone = true := hdone
  have hover : pollAgain s = false := by simp [pollAgain, hdone]
  have s15 := ScriptRun.quiet (t := { s with hupc := .sendPacket src dst n .s16 }) (hs ▸ nofun) hidle
    ((hostStep_send hs).trans (by simp [stepSendPacket, sendPoll, hover])) rfl
  have hfinish : hostStep { s with hupc := .sendPacket src dst n .s16 } =
      respond .ok [] { s with hupc := .sendPacket src dst n .s16 } := if_pos hdone
  have s16 := ScriptRun.host (s := { s with hupc := .sendPacket src dst n .s16 })
    (l := [.response _]) nofun hidle hfinish ⟨[_], rfl, rfl⟩ rfl rfl
  exact ⟨_, s15.trans s16⟩

/-- The byte of the re-arm's read is the live target's MODEM_CONFIG_1. -/
theorem isrTx_answered {f c : Byte} {s : State} (hadm : s.cfg.admitted = true) (hwf : s.env.tmem.wf = true) (hl : Live s)
    (h : Answered s.cfg.regs s.rst (isrTxTrace f c s) s.env) :
    s.hdr = .explicit ∨ c = targetReg s.env s.cfg.regs.modemConfig1 := by
  by_cases hdr : s.hdr = .explicit
  · exact .inl hdr
  · have hfifo : s.cfg.regs.modemConfig1 ≠ s.cfg.regs.fifo := regs_ne hadm 15 0 (by decide)
    have hflags : s.cfg.regs.irqFlags ≠ s.cfg.regs.fifo := regs_ne hadm 11 0 (by decide)
    have hne : s.cfg.regs.modemConfig1 ≠ s.cfg.regs.irqFlags := regs_ne hadm 15 11 (by decide)
    rw [isrTxTrace, if_neg hdr] at h
    obtain ⟨-, hread, -⟩ := h
    have hlive := accesses_live (r := s.cfg.regs) [(s.cfg.regs.irqFlags, none), (s.cfg.regs.irqFlags, some f)] hl
    have hbyte := hread.trans (targetByte_live hlive hfifo)
    refine .inr (hbyte.trans (accesses_outside [(s.cfg.regs.irqFlags, none), (s.cfg.regs.irqFlags, some f)] hwf ?_ ?_))
    · simp [hflags]
    · simp [regAddress_inj, hne]

/-- From the poll loop with the transmit handler attached to the response: TxComplete, the dispatch, ISR_TX, s15 and s16. -/
theorem run_completion {src dst : Byte} {n : Nat} {s : State} {f c : Byte} (hs : s.hupc = .sendPacket src dst n .s15)
    (hidle : s.iupc = .idle) (hfree : s.lock = .free) (htx : s.txcb = true) (harmed : s.armed = .txDone)
    (hadm : s.cfg.admitted = true) (hwf : s.env.tmem.wf = true) (hl : Live s) (hmode : targetMode s = 3)
    (hroute : targetRouting s = 1) (hf : f = targetReg s.env s.cfg.regs.irqFlags ||| 0x08)
    (hflag : flagSet f s.cfg.irqTxDone = true) (hc : c = targetReg s.env s.cfg.regs.modemConfig1) :
    ∃ t, (∀ rest, runScript ([.txComplete, .dispatch true] ++
        (List.replicate (11 + (if s.hdr = .explicit then 0 else 1) + (if s.rxcb then 1 else 0)) .irq ++
          (List.replicate 2 .host ++ rest))) s = setScript rest t) ∧
      PutOut s t (isrTxTrace f c s ++ [.response [s.cfg.statuses.ok]]) ∧
      block t = { isrTxDone f c (block s) with hupc := .idle, pendTx := false } ∧ t.cs = .high ∧
      t.env.kind = s.env.kind ∧ t.env.turns = s.env.turns ∧
      ∀ b, b ∉ [s.cfg.regs.irqFlags, s.cfg.regs.dioMapping1, s.cfg.regs.opMode].map regAddress →
        (s.hdr ≠ .explicit → b ≠ regAddress s.cfg.regs.modemConfig1) → t.env.tmem.read b = s.env.tmem.read b := by
  have hbusy : s.hupc ≠ .idle := hs ▸ nofun
  have hkind : s.env.kind = .reference := by
    have hboth : s.env.kind = .reference ∧ s.rst = .high := by simpa [Live, targetLive] using hl
    exact hboth.1
  have hfifo : s.cfg.regs.irqFlags ≠ s.cfg.regs.fifo := regs_ne hadm 11 0 (by decide)
  have hcf : s.cfg.regs.modemConfig1 ≠ s.cfg.regs.irqFlags := regs_ne hadm 15 11 (by decide)
  have hcm : s.cfg.regs.modemConfig1 ≠ s.cfg.regs.opMode := regs_ne hadm 15 1 (by decide)
  have hwf' : (dispatched s).env.tmem.wf = true := writeRegs_wf _ hwf
  have hcaptured : captured (dispatched s).cfg.regs.irqFlags (dispatched s) = f :=
    (captured_live (s := dispatched s) hl hfifo).trans ((dispatched_flags hadm hwf).trans hf.symm)
  obtain ⟨s4, c', h4, hcs⟩ := run_isrTx (s := dispatched s) rfl hfree hcaptured
    (by simp [txAnomaly, hflag, htx] : txAnomaly s.cfg f s.txcb = none)
  have hmodem : targetReg (dispatched s).env s.cfg.regs.modemConfig1 = c :=
    (dispatched_keeps hwf (mt regAddress_inj.1 hcf) (mt regAddress_inj.1 hcm)).trans hc.symm
  obtain ⟨htrace, hdone⟩ := isrTx_congr (f := f) (s := dispatched s)
    ((isrTx_answered (s := dispatched s) hadm hwf' hl h4.answered).imp_right fun h => h.trans hmodem)
  rw [htrace, hdone] at h4
  obtain ⟨t, h5⟩ := run_respond (src := src) (dst := dst) (n := n) h4.block hs rfl rfl
  have h := (ScriptRun.ofIrqRun h4 hbusy).trans h5
  have hend : t.hupc = .idle := (congrArg State.hupc h5.block :)
  have henv : t.env = accesses s.cfg.regs s.rst ((isrTxTrace f c (dispatched s)).filterMap accessOf) (dispatched s).env := by
    have hall := h.env
    rw [List.filterMap_append] at hall
    exact hall.trans (congrArg (fun l => accesses s.cfg.regs s.rst l (dispatched s).env) (List.append_nil _))
  obtain ⟨hkind', hturns, -⟩ := accesses_frame (r := s.cfg.regs) (rst := s.rst)
    ((isrTxTrace f c (dispatched s)).filterMap accessOf) (dispatched s).env
  refine ⟨t, fun rest => ?runs, h.putOut, h5.block.trans rfl, h5.cs_high hcs, ?kind, ?turns, fun b hb hb' => ?frame⟩
  case runs =>
    have hruns := h.runs rest
    rw [List.append_assoc] at hruns
    rw [List.cons_append, List.cons_append, List.nil_append, runScript_dispatched hbusy hidle hkind hmode hroute harmed]
    exact hruns.trans (runScript_idle hend rest)
  case kind => exact (congrArg Env.kind henv).trans hkind'
  case turns => exact (congrArg Env.turns henv).trans hturns
  case frame =>
    simp only [List.map_cons, List.map_nil, List.mem_cons, List.not_mem_nil, or_false, not_or] at hb
    obtain ⟨hflags, hdio, hopmode⟩ := hb
    refine (congrArg (fun e : Env => e.tmem.read b) henv).trans
      ((accesses_outside _ hwf' (fun x hx => ?_) fun x hx _ => ?_).trans (dispatched_keeps hwf hflags hopmode))
    · have hregs := isrTxTrace_registers hx
      simp only [List.mem_cons, List.not_mem_nil, or_false] at hregs
      obtain (h | h | h) | ⟨-, h⟩ := hregs <;> rw [h]
      · exact hfifo
      · exact regs_ne hadm 22 0 (by decide)
      · exact regs_ne hadm 1 0 (by decide)
      · exact regs_ne hadm 15 0 (by decide)
    · have hregs := isrTxTrace_registers hx
      simp only [List.mem_cons, List.not_mem_nil, or_false] at hregs
      obtain (h | h | h) | ⟨hdr, h⟩ := hregs <;> rw [h]
      · exact hflags
      · exact hdio
      · exact hopmode
      · exact hb' hdr

/-- What ISR_TX puts out is told by the configuration, the tracked header mode and the receive callback. -/
theorem isrTxTrace_eq {f c : Byte} {s t : State} (hcfg : t.cfg = s.cfg) (hdr : t.hdr = s.hdr) (hrx : t.rxcb = s.rxcb) :
    isrTxTrace f c t = isrTxTrace f c s := by
  rw [isrTxTrace, isrTxTrace, hcfg, hdr, hrx]

/-- SEND_PACKET keeps the registers it does not write. -/
theorem SentHolds.targetReg_kept {frame : List Byte} {s : State} {e : Env} (h : SentHolds frame s e) {a : RegNum}
    (ha : a ∉ [s.cfg.regs.opMode, s.cfg.regs.fifoAddrPtr, s.cfg.regs.payloadLength, s.cfg.regs.dioMapping1]) :
    targetReg e a = targetReg s.env a := by
  simp only [List.mem_cons, List.not_mem_nil, or_false, not_or] at ha
  obtain ⟨hmode, hptr, hpl, hdio⟩ := ha
  refine h.kept _ fun hin => ?_
  rw [List.mem_append, List.mem_append] at hin
  obtain (hfifo | hreg) | hroute := hin
  · obtain ⟨j, -, hj⟩ := List.mem_map.1 hfifo
    have := regAddress_lt a
    omega
  · simp [regAddress_inj, hmode, hptr, hpl] at hreg
  · split at hroute
    · exact hdio (regAddress_inj.1 (List.mem_singleton.1 hroute))
    · cases hroute

/-- Settles O45: the run up to the poll loop, and from there the completion. -/
theorem sendPacketCompletes : Obligations.SendPacketCompletes := by
  rintro src dst payload n rest s f c rfl hlen hhost hidle hdrv hfree hr hl htx hmode hroute hf hflag hc hscript
  obtain ⟨s1, h1, hcs1⟩ := run_send (src := src) (dst := dst) hidle hfree hr hl hlen
  have kept {α : Type} (g : State → α) : g (block s1) = g _ := congrArg g h1.block
  have hcfg : s1.cfg = s.cfg := h1.cfg
  have hsent : SentHolds (frameHeader src dst (s.seq + 1) payload.length ++ payload) s s1.env :=
    h1.env ▸ sentHolds (src := src) (dst := dst) (seq := s.seq + 1) hr hl hlen
  have hflags : targetReg s1.env s.cfg.regs.irqFlags = targetReg s.env s.cfg.regs.irqFlags :=
    hsent.targetReg_kept (by
      simp only [List.mem_cons, List.not_mem_nil, or_false, not_or]
      exact ⟨regs_ne hr.1 11 1 (by decide), regs_ne hr.1 11 7 (by decide), regs_ne hr.1 11 19 (by decide),
        regs_ne hr.1 11 22 (by decide)⟩)
  have hmodem : targetReg s1.env s.cfg.regs.modemConfig1 = targetReg s.env s.cfg.regs.modemConfig1 :=
    hsent.targetReg_kept (by
      simp only [List.mem_cons, List.not_mem_nil, or_false, not_or]
      exact ⟨regs_ne hr.1 15 1 (by decide), regs_ne hr.1 15 7 (by decide), regs_ne hr.1 15 19 (by decide),
        regs_ne hr.1 15 22 (by decide)⟩)
  have hmode1 : targetMode s1 = 3 := by rw [targetMode, hcfg, hsent.mode, hmode]
  have hroute1 : targetRouting s1 = 1 := by rw [targetRouting, hcfg, hsent.routed htx, hroute]
  have hdr : s1.hdr = s.hdr := kept State.hdr
  have hrx : s1.rxcb = s.rxcb := kept State.rxcb
  obtain ⟨t, hruns, hout, hblock, hcs, hkind, hturns, hframe⟩ := run_completion (s := s1) (f := f) (c := c)
    (kept State.hupc) ((kept State.iupc).trans hidle) (kept State.lock) ((kept State.txcb).trans htx)
    ((kept State.armed).trans (if_pos htx)) (hcfg ▸ hr.1) hsent.wf (h1.live hl) hmode1 hroute1
    (by rw [hcfg, hflags, hf]) (by rw [hcfg, hflag]) (by rw [hcfg, hmodem, hc])
  rw [hdr, hrx] at hruns
  rw [hcfg, isrTxTrace_eq hcfg hdr hrx] at hout
  rw [hcfg, hdr] at hframe
  have hexec : exec (.sendPacket src dst payload) s = .next (setScript rest t) := by
    have hmoves : 19 + payload.length + (if s.txcb = true then 1 else 0) = 20 + payload.length := by
      rw [if_pos htx]
      omega
    have hfirst := (hmoves ▸ h1).runs
    rw [exec_sendPacket hhost hdrv hlen, hscript, List.append_assoc, List.append_assoc, List.append_assoc, hfirst, hruns]
  obtain ⟨hkind1, hturns1, -⟩ := accesses_frame (r := s.cfg.regs) (rst := s.rst)
    ((sendTrace src dst (s.seq + 1) payload s).filterMap accessOf) s.env
  have hcount : (frameHeader src dst (s.seq + 1) payload.length ++ payload).length = 4 + payload.length :=
    List.length_append
  refine ⟨_, hexec, ?trace, ?block, ⟨hcs, ?kind, ?turns, rfl, fun a ha => ?frame⟩, fun j hj => ?stored, ?length⟩
  case trace =>
    have hall := putOut_trans h1.putOut hout
    simp only [sendTrace, isrTxTrace, if_pos htx, List.append_assoc] at hall ⊢
    exact hall
  case block =>
    rw [blockIs_iff]
    refine hblock.trans ?_
    rw [h1.block, isrTxDone, polling, ← hfree, ← hidle, ← hhost]
    rfl
  case kind => exact hkind.trans ((congrArg Env.kind h1.env).trans hkind1)
  case turns => exact hturns.trans ((congrArg Env.turns h1.env).trans hturns1)
  case frame =>
    simp only [List.map_cons, List.map_nil, List.mem_append, List.mem_cons, List.not_mem_nil, or_false, not_or] at ha
    obtain ⟨⟨hfifo, hopmode, hptr, hpl, hdio, hirq⟩, hheader⟩ := ha
    refine (hframe a (by simp [hirq, hdio, hopmode]) fun hne he => hheader (by simp [hne, he])).trans (hsent.kept a ?_)
    rw [hcount, if_pos htx]
    simp [hfifo, hopmode, hptr, hpl, hdio]
  case stored =>
    have hlow (b : RegNum) : 256 + j ≠ regAddress b := by
      have := regAddress_lt b
      omega
    exact (hframe (256 + j) (by simp [hlow]) fun _ => hlow _).trans (hsent.stored j (by rw [hcount]; exact hj))
  case length =>
    have hne (i : Fin 24) (hi : 19 ≠ i) : regAddress s.cfg.regs.payloadLength ≠ regAddress (s.cfg.regs.toList[i]'i.isLt) :=
      mt regAddress_inj.1 (regs_ne hr.1 19 i hi)
    have hkept := hframe (regAddress s.cfg.regs.payloadLength) (by
      simp only [List.map_cons, List.map_nil, List.mem_cons, List.not_mem_nil, or_false, not_or]
      exact ⟨hne 11 (by decide), hne 22 (by decide), hne 1 (by decide)⟩) fun _ => hne 15 (by decide)
    exact hkept.trans (hsent.length.trans (congrArg (BitVec.ofNat 8) hcount))

end Sys2Proof.Proofs
end
